-- ==== Sys2Proof/Word.lean ====
section
/-! DEFINITION. The words of the link: a blanking message, a reply and a line record are made of 16-bit
words (spec 00, Words and layouts), and a header holds 8-bit fields (spec 10.8). -/

namespace Sys2Proof

/-- A 16-bit word of a message or a reply; bit 15 is the most significant (spec 00, Words and layouts). -/
abbrev Word := BitVec 16

/-- An 8-bit header field: kind, tag or flags (spec 10.8). -/
abbrev Byte := BitVec 8

end Sys2Proof
end

