-- ==== Sys2Proof/Syntax.lean ====
section
/-! DEFINITION. The commands of the part: one constructor for each row of spec/opcode_table.json. A row
that is an event from outside carries what the outside brings (an axis, a sample, a word). A row that is
a message carries nothing: its operands are the payload of the envelope in the executor slot (R166), so
they stand in the state when the command is carried out (assumption 2). -/

namespace Sys2Proof

/-- The three lens axes (spec 04). -/
inductive Axis where
  | v | h | f
  deriving DecidableEq, Repr

/-- The four temperature sensors (spec 06). -/
inductive Sensor where
  | laser | panel | dump | lens
  deriving DecidableEq, Repr

/-- The three fans (spec 08). -/
inductive Fan where
  | intake | light | exhaust
  deriving DecidableEq, Repr

/-- The parity a frame start carries (R160). -/
inductive Parity where
  | even | odd
  deriving DecidableEq, Repr

/-- One RGB sample, 10 bits a component (spec 00, Fixed formats). -/
structure Sample where
  r : BitVec 10
  g : BitVec 10
  b : BitVec 10
  deriving DecidableEq, Repr

/-- The two inputs that can hold the part in reset (R178). -/
inductive ResetInput where
  | powerOn | supply
  deriving DecidableEq, Repr

/-- The commands. -/
inductive Instr where
  /-- Release of the power-on reset input (R178). -/
  | powerOnReset
  /-- Release of a reset held by the supply monitor (R178). -/
  | supplyDipReset
  /-- The memory self-check ends; `passed` says whether every word read back as written (R179). -/
  | selfCheckDone (passed : Bool)
  /-- A frame start with its parity and declared source size (R4, R160). -/
  | inputFrameStart (parity : Parity) (w h : Word)
  /-- An active line with the samples it carries (R1). -/
  | activeLine (samples : List Sample)
  /-- A message slot of a blanking line, 65 words (R160, R162). -/
  | blankingSlot (words : List Word)
  /-- The 200 ms loss timer expires (R161). -/
  | linkLossTimeout
  /-- One output line is sent (R5). -/
  | outputLine
  /-- The output frame ends (R5, R21). -/
  | outputFrameEnd
  /-- A send opportunity, with the ready line as sampled (R168). -/
  | sendOpportunity (ready : Bool)
  /-- The 100 ms fan period ends (R132). -/
  | fanUpdate
  /-- A tachometer pulse of a fan (R138). -/
  | tachPulse (fan : Fan)
  /-- A sensor's sampling window ends with the converter's raw sample, signed (R104). -/
  | windowEnd (sensor : Sensor) (raw : Word)
  /-- An axis issues its next step (R62). -/
  | axisStep (axis : Axis)
  /-- The low limit switch of an axis closes (R77). -/
  | limitSwitchClose (axis : Axis)
  /-- The low limit switch of an axis opens (R182). -/
  | limitSwitchOpen (axis : Axis)
  /-- A homing leg reaches its step bound (R183). -/
  | homingBoundReached (axis : Axis)
  /-- The leg timer reaches the move timeout (R78). -/
  | moveTimeout (axis : Axis)
  /-- The driver fault input of an axis becomes asserted (`true`, R79), or is withdrawn (`false`: only the
  level that the next leg's beginning will find changes; assumption 7). -/
  | driverFault (axis : Axis) (asserted : Bool)
  /-- The running corner generation ends (R49). -/
  | generationEnd
  | stop | lock | unlock | clear | lower | eventAck | softReset
  | move | hold | resume | returnMove | home | place | placeCancel | install
  | pictureMode | tableOpen | tableRun | tableCommit | corners
  | lensCal | profile | focusTable | focusUpkeep
  | sensorSet | thresholds | brightness | fanCurve | fanLimits | quiet
  | levels | actions | eventMask
  | queryAxis | queryPlacement | querySensors | queryFans | queryLight | queryProtection
  | queryEvents | queryCounters | queryTable | queryCause | queryPicture
  /-- A message of an unassigned kind is carried out (R165). -/
  | unknownKind
  /-- A reset input takes hold of the part (R178). -/
  | heldInReset (input : ResetInput)
  deriving DecidableEq, Repr

end Sys2Proof
end

