-- ==== Sys2Proof/Decode.lean ====
section
/-! DEFINITION. The command that a word spells by the opcode table's bits. No row of
spec/opcode_table.json gives bits (every row's "fields" is empty and none has "fixed"), so no word spells
a command (assumption 5). The encoding of messages on the link is Machine/Messages.lean's. -/

namespace Sys2Proof

/-- The table gives no row bits: no word spells a command. -/
def decodeTableWord (_nbits _w : Nat) : Option Instr := none

end Sys2Proof
end

