-- ==== Sys2Proof/Config.lean ====
section
/-! DEFINITION. What is fixed for the part: the fixed formats of spec 00, and the values the spec leaves
open (constants without a body, so that nothing can be proved of them). -/

namespace Sys2Proof.Config

/-- Columns of the panel, and samples of a frame-memory row (spec 00, Fixed formats; R1). -/
def panelColumns : Nat := 3840

/-- Rows of the panel, line records of a bank, rows of a frame slot (spec 00, Fixed formats). -/
def panelRows : Nat := 2160

/-- The number of envelopes (R164). -/
def envelopes : Nat := 32

/-- Message slots examined in one frame: 44 blanking lines of four slots (R160). -/
def examinedSlots : Nat := 176

/-- Payload words of one part of a reply, and of a blanking message (R162, R169). -/
def payloadWords : Nat := 62

/-- The top of a saturating counter (R90, R163, R164). -/
def counterTop : Nat := 65535

/-- FREE VALUE. One component (0 red, 1 green, 2 blue) of a frame-memory sample that nothing has written
since the contents became undefined (R3: "The contents of the frame memory are not defined after a
reset"), by the number of the reset, the slot, the row and the column (assumption 6). -/
opaque undefinedComponent : (epoch slot row column component : Nat) → BitVec 10

/-- FREE VALUE. The word a reply carries for a value that does not fit its 16-bit field; spec 10.8 gives
no encoding for it (assumption 12). -/
opaque unfitWord : Int → Word

end Sys2Proof.Config
end

