-- ==== Sys2Proof/Machine/Types.lean ====
section
/-! DEFINITION. The kinds of state the blocks of the part hold (plain data; each block's chapter is named
at its type). Machine/State.lean puts them together. -/

namespace Sys2Proof.Machine

/-- A value for each lens axis. -/
structure PerAxis (α : Type) where
  v : α
  h : α
  f : α
  deriving DecidableEq, Repr

/-- A value for each temperature sensor, in the order of spec 06. -/
structure PerSensor (α : Type) where
  laser : α
  panel : α
  dump : α
  lens : α
  deriving DecidableEq, Repr

/-- A value for each fan, in the order of spec 08. -/
structure PerFan (α : Type) where
  intake : α
  light : α
  exhaust : α
  deriving DecidableEq, Repr

/-! ### Start-up unit (spec 11) -/

/-- The part state (R178, R179). -/
inductive PartState where
  | starting | ready | failed
  deriving DecidableEq, Repr

/-- The state of the memory self-check (R179). -/
inductive SelfCheck where
  | running | passed | failed
  deriving DecidableEq, Repr

/-- The recorded reason of the last reset (R180). -/
inductive RestartCause where
  | none | powerOn | supplyDip | soft
  deriving DecidableEq, Repr

structure Startup where
  part : PartState
  check : SelfCheck
  cause : RestartCause
  deriving DecidableEq, Repr

/-- Which reset inputs hold the part, and whether the power-on input took part in the present hold, so
that "a release that follows both records POWER_ON" (R178). -/
structure Hold where
  powerOn : Bool
  supply : Bool
  sawPowerOn : Bool
  deriving DecidableEq, Repr

/-! ### Link receiver (spec 10.1) and frame slots (spec 01, 1.1) -/

/-- A source size, columns and rows. -/
structure Size where
  w : Nat
  h : Nat
  deriving DecidableEq, Repr

/-- The two frame slots of the frame memory. -/
inductive SlotId where
  | s0 | s1
  deriving DecidableEq, Repr

/-- A slot's record and what the judgement of R2 needs: the declared size, the complete mark, whether a
frame has been opened in it since the latest reset, whether R3 marked it not complete since, and how many
lines were counted. -/
structure SlotRecord where
  size : Size
  complete : Bool
  opened : Bool
  spoiled : Bool
  counted : Nat
  deriving DecidableEq, Repr

structure Link where
  present : Bool
  timerRunning : Bool
  lastParity : Option Parity
  lastSize : Option Size
  badCheck : Nat
  inputSlot : SlotId
  readSlot : Option SlotId
  slot0 : SlotRecord
  slot1 : SlotRecord
  activeLines : Nat
  blankingSlots : Nat
  deriving DecidableEq, Repr

/-- A sparse table by row or line number: rising numbers, each with its value. -/
abbrev Store (α : Type) := List (Nat × α)

/-- The external frame memory: for each slot the rows written since its contents became undefined, each
with the samples known from column 0 on, and the number of that event (assumption 6). -/
structure FrameMemory where
  s0 : Store (List Sample)
  s1 : Store (List Sample)
  epoch : Nat
  deriving DecidableEq, Repr

/-! ### Intake, executor and reply queue (spec 10.3) -/

/-- An envelope: one message (R164). -/
structure Envelope where
  kind : Byte
  tag : Byte
  flags : Byte
  payload : List Word
  deriving DecidableEq, Repr

/-- The three classes of messages (R165). -/
inductive MsgClass where
  | urgent | motion | setup
  deriving DecidableEq, Repr

/-- The reasons of a refusal (R167, codes in spec 10.8). -/
inductive Reason where
  | busy | locked | notHomed | notReady | badField | badState | badTable | nothing | unknown
  deriving DecidableEq, Repr

/-- The tests of the validation (R30). -/
inductive TableTest where
  | kind | range | order | rowSpan
  deriving DecidableEq, Repr

/-- The outcome of an execution (R167): DONE; CLAMPED with the value as taken; REFUSED with a reason;
REFUSED BAD_TABLE with line and test; DATA with the items. -/
inductive MsgOutcome where
  | done
  | clamped (value : Word)
  | refused (reason : Reason)
  | badTable (line : Nat) (test : TableTest)
  | data (items : List Word)
  deriving DecidableEq, Repr

/-- A reply waiting in its envelope, with the number of parts already sent (R167, R169). -/
structure Reply where
  kind : Byte
  tag : Byte
  outcome : MsgOutcome
  sent : Nat
  deriving DecidableEq, Repr

structure Intake where
  free : Nat
  urgent : List Envelope
  motion : List Envelope
  setup : List Envelope
  slot : Option Envelope
  replies : List Reply
  dropped : Nat
  deriving DecidableEq, Repr

/-! ### Reply sender (spec 10.5) -/

/-- The event flags (R170); the three of an axis family by axis. -/
inductive EventFlag where
  | moveDone (a : Axis)
  | stopped (a : Axis)
  | axisFault (a : Axis)
  | slip (a : Axis)
  | homeDone (a : Axis)
  | homeFailed (a : Axis)
  | tableSwapped | genDone | genFailed | sizeMismatch | placeDone
  | levelChanged | sourcePending | dropped | linkLost | linkBack | ready
  deriving DecidableEq, Repr

/-- The state of the attention notice (R171). -/
inductive Notice where
  | none | queued | sent
  deriving DecidableEq, Repr

/-- The flags and the mask are held in the layout of spec 10.8, the first word in bits 15..0. -/
structure Sender where
  flags : BitVec 32
  mask : BitVec 32
  notice : Notice
  laneOut : Option (List Word)
  deriving DecidableEq, Repr

/-! ### Picture engine (spec 01) -/

/-- The picture mode (R12). -/
inductive PictureMode where
  | identity | table | grid | mute
  deriving DecidableEq, Repr

/-- The install orientation, and the name of a fan's curve set (R18, R130). -/
inductive Orientation where
  | floor | ceiling
  deriving DecidableEq, Repr

/-- The mute causes in force (R15). -/
structure Mutes where
  starting : Bool
  memory : Bool
  size : Bool
  prot : Bool
  host : Bool
  link : Bool
  deriving DecidableEq, Repr

/-- The two banks of the table store. -/
inductive BankId where
  | a | b
  deriving DecidableEq, Repr

/-- The output frame in flight and the parameters R4 fixes for it; `black` once a mute cause has been in
force for it (R15, R16), `nextRow` the next output line, `sum` the light so far (R20). -/
structure OutFrame where
  read : Option (SlotId × Size)
  mode : PictureMode
  orientation : Orientation
  bank : BankId
  dx : Int
  dy : Int
  parity : Parity
  black : Bool
  nextRow : Nat
  sum : Nat
  deriving DecidableEq, Repr

/-- A line as sent to the panel formatter: its row, its pixels, and with row 0 the frame's start and
output parity (R4). -/
structure PanelLine where
  row : Nat
  start : Option Parity
  pixels : List Sample
  deriving DecidableEq, Repr

structure Picture where
  mode : PictureMode
  orientation : Orientation
  mutes : Mutes
  lastLight : Nat
  outParity : Parity
  frame : Option OutFrame
  panelOut : Option PanelLine
  deriving DecidableEq, Repr

/-! ### Table store (spec 02) and corner generator (spec 03) -/

/-- The parity condition of a commit (R29). -/
inductive ParityCond where
  | any | even | odd
  deriving DecidableEq, Repr

/-- How a bank's content was made (2.1). -/
inductive BankSource where
  | loaded | generated
  deriving DecidableEq, Repr

/-- A line record (2.2). `kind` is 0 DARK, 1 LIT, or any other word as delivered (R25); the sub-pixel
fields are exact integers in 1/65536 pixel. -/
structure LineRecord where
  kind : Nat
  xLeft : Nat
  xRight : Nat
  u0 : Int
  du : Int
  v0 : Int
  dv : Int
  deriving DecidableEq, Repr

/-- A bank: its header and its 2160 records; a line not listed holds the DARK record (assumption 10). -/
structure Bank where
  size : Size
  source : BankSource
  records : Store LineRecord
  deriving DecidableEq, Repr

/-- The black border on each side, in pixels (2.6). -/
structure Margins where
  up : Nat
  down : Nat
  left : Nat
  right : Nat
  deriving DecidableEq, Repr

structure TableStore where
  bankA : Bank
  bankB : Bank
  active : BankId
  loadOpen : Bool
  commit : Option ParityCond
  auto : Bool
  margins : Margins
  mismatch : Option Size
  deriving DecidableEq, Repr

/-- A screen position, column first. -/
structure Point where
  x : Int
  y : Int
  deriving DecidableEq, Repr

structure CornerSet where
  tl : Point
  tr : Point
  bl : Point
  br : Point
  deriving DecidableEq, Repr

/-- Why a generation failed (R52). -/
inductive GenReason where
  | badShape
  | test (t : TableTest)
  deriving DecidableEq, Repr

inductive GenOutcome where
  | none
  | success
  | failed (reason : GenReason) (line : Nat)
  deriving DecidableEq, Repr

/-- The corner generator; `running` is the generation size while GENERATING, none while IDLE. -/
structure Generator where
  corners : Option CornerSet
  running : Option Size
  outcome : GenOutcome
  deriving DecidableEq, Repr

/-! ### Lens controller (spec 04) and homing (spec 11.3) -/

/-- A direction of travel, and an approach direction: RAISE by increasing steps (R59). -/
inductive Dir where
  | raise | lower
  deriving DecidableEq, Repr

structure Profile where
  start : Nat
  top : Nat
  ramp : Nat
  deriving DecidableEq, Repr

/-- The originators of a move with a move record (R65); homing has none. -/
inductive Owner where
  | commanded | placement | upkeep
  deriving DecidableEq, Repr

/-- One stretch of a move: its end position and its direction (R64). -/
structure Leg where
  stop : Nat
  dir : Dir
  deriving DecidableEq, Repr

/-- A time in seconds, an exact fraction. -/
structure Seconds where
  num : Nat
  den : Nat
  deriving DecidableEq, Repr

/-- A move record (R64): target, owner, profile copy, legs and current leg (from 1), with the steps of the
current leg issued since it (or its resumption) began, the ramp index of the last of them, and the leg
timer as of the last step (R62, R78). -/
structure MoveRec where
  target : Nat
  owner : Owner
  profileNo : Nat
  profile : Profile
  legs : List Leg
  current : Nat
  k : Nat
  lastIndex : Nat
  timer : Seconds
  deriving DecidableEq, Repr

/-- Why a move is stopped by deceleration (R72, R75). -/
inductive HaltReason where
  | host | locked
  deriving DecidableEq, Repr

/-- What a decelerating axis does when it stands (R71). -/
inductive StopIntent where
  | idle (reason : HaltReason)
  | holding
  | retarget (target : Nat)
  deriving DecidableEq, Repr

inductive HomingPhase where
  | seek | backoff
  deriving DecidableEq, Repr

/-- A homing sequence (R182): its phase, the step bound and profile of the current leg, the steps taken in
it, the ramp index of the last one, and, while STOP or a lock ends it, the reason and the deceleration
steps left. -/
structure HomingRun where
  phase : HomingPhase
  bound : Nat
  profile : Profile
  steps : Nat
  lastIndex : Nat
  halt : Option (HaltReason × Nat)
  deriving DecidableEq, Repr

/-- The axis state with what goes with it (R57): the move record, and while STOPPING the stop intent and
the deceleration steps left. -/
inductive Phase where
  | unhomed
  | homing (run : HomingRun)
  | idle
  | moving (m : MoveRec)
  | holding (m : MoveRec)
  | stopping (m : MoveRec) (intent : StopIntent) (left : Nat)
  | fault
  deriving DecidableEq, Repr

/-- A calibration record (R59). -/
structure Cal where
  max : Nat
  backlash : Nat
  approach : Dir
  pps : Int
  reference : Nat
  homingProfile : Nat
  timeout : Nat
  slipTolerance : Nat
  deriving DecidableEq, Repr

/-- Why a homing sequence failed (R183). -/
inductive HomeFailure where
  | noSwitch | stuckSwitch | stopped | locked
  deriving DecidableEq, Repr

inductive StopReason where
  | host | locked | limit
  deriving DecidableEq, Repr

inductive FaultReason where
  | timeout | driver
  deriving DecidableEq, Repr

/-- How the axis's most recent move ended (R58, spec 10.8). -/
inductive LastEnd where
  | none
  | completed
  | stopped (reason : StopReason)
  | slip
  | fault (reason : FaultReason)
  | homed
  | homeFailed (reason : HomeFailure)
  deriving DecidableEq, Repr

/-- An axis unit. `dirOut` and `pulses` are its outputs to the motor driver: the direction driven, and how
many step pulses have been issued since the reset (assumption 27). -/
structure AxisUnit where
  phase : Phase
  pos : Nat
  hostLock : Bool
  protLock : Bool
  cal : Cal
  ring : List Nat
  lastEnd : LastEnd
  dirOut : Dir
  pulses : Nat
  deriving DecidableEq, Repr

structure Lens where
  axes : PerAxis AxisUnit
  profiles : List Profile
  deriving DecidableEq, Repr

/-- An axis's inputs, as they stand (assumption 7). -/
structure AxisPins where
  switchClosed : Bool
  driverFault : Bool
  deriving DecidableEq, Repr

/-! ### Placement tracker (spec 05) -/

inductive PlaceState where
  | none | tracking | settled | partly
  deriving DecidableEq, Repr

/-- The latest frame's offset and the margins handed for it (R89, R90). -/
structure FrameOffset where
  dxRaw : Int
  dyRaw : Int
  dx : Int
  dy : Int
  clampedX : Bool
  clampedY : Bool
  margins : Margins
  deriving DecidableEq, Repr

structure Placement where
  state : PlaceState
  ox : Int
  oy : Int
  posVt : Nat
  posHt : Nat
  outV : Bool
  outH : Bool
  shortV : Bool
  shortH : Bool
  settleDue : Bool
  frame : FrameOffset
  offTarget : Nat
  deriving DecidableEq, Repr

/-- A breakpoint: a temperature in 0.25 °C and the value there. -/
structure Breakpoint where
  t : Int
  value : Int
  deriving DecidableEq, Repr

structure Focus where
  upkeep : Bool
  table : List Breakpoint
  desired : Int
  applied : Int
  base : Int
  record : Option Int
  deriving DecidableEq, Repr

/-! ### Sensor unit (spec 06) -/

structure SensorSettings where
  window : Nat
  index : Nat
  trip : Nat
  deriving DecidableEq, Repr

structure SensorUnit where
  window : Nat
  index : Nat
  trip : Nat
  pend : Option SensorSettings
  raw : Option Int
  reading : Option Int
  high : Bool
  fault : Bool
  deriving DecidableEq, Repr

structure Sensors where
  units : PerSensor SensorUnit
  criteria : List Int
  deriving DecidableEq, Repr

/-! ### Light unit (spec 07) -/

/-- A value for each heat zone. -/
structure Heat where
  laser : Nat
  lens : Nat
  dump : Nat
  deriving DecidableEq, Repr

structure Light where
  b : Nat
  d : Nat
  limit : Nat
  split : Heat
  accN : Nat
  accSum : Heat
  avg : Heat
  avgFrames : Bool
  deriving DecidableEq, Repr

/-! ### Fan controller (spec 08) -/

inductive Zone where
  | laser | dump | lens | none
  deriving DecidableEq, Repr

inductive FanState where
  | stopped | spinup | running | stalled
  deriving DecidableEq, Repr

/-- A fan record (R130). -/
structure FanRecord where
  sensor : Sensor
  floorSet : List Breakpoint
  ceilingSet : List Breakpoint
  zone : Zone
  gain : Nat
  quietCap : Nat
  stallSpeed : Nat
  deriving DecidableEq, Repr

structure FanUnit where
  record : FanRecord
  state : FanState
  duty : Nat
  spin : Nat
  history : List Nat
  count : Nat
  speed : Nat
  stallRun : Nat
  recovery : Nat
  lastCurve : Nat
  lastFF : Nat
  lastDemand : Nat
  readingUsed : Int
  deriving DecidableEq, Repr

structure Fans where
  quiet : Bool
  floor : Nat
  capLifted : Bool
  curveSet : Orientation
  reReport : Bool
  units : PerFan FanUnit
  deriving DecidableEq, Repr

/-! ### Protection unit (spec 09) -/

/-- The twelve protection sources (R147). -/
inductive Source where
  | trip | tempLaser | tempPanel | tempDump | tempLens | sensorFault
  | stallIntake | stallLight | stallExhaust | lensFault | linkLoss | memoryFault
  deriving DecidableEq, Repr

/-- A value for each protection source. -/
structure PerSource (α : Type) where
  trip : α
  tempLaser : α
  tempPanel : α
  tempDump : α
  tempLens : α
  sensorFault : α
  stallIntake : α
  stallLight : α
  stallExhaust : α
  lensFault : α
  linkLoss : α
  memoryFault : α
  deriving DecidableEq, Repr

/-- The five actions of a level (R151). -/
structure Actions where
  limit : Nat
  floor : Nat
  capLifted : Bool
  lensLock : Bool
  mute : Bool
  deriving DecidableEq, Repr

structure ActionTable where
  level1 : Actions
  level2 : Actions
  level3 : Actions
  deriving DecidableEq, Repr

inductive LevelCause where
  | none
  | host
  | source (s : Source)
  deriving DecidableEq, Repr

structure Protection where
  pending : PerSource Bool
  levels : PerSource Nat
  c : Nat
  cause : LevelCause
  table : ActionTable
  deriving DecidableEq, Repr

end Sys2Proof.Machine
end

