-- ==== Sys2Proof/Machine/Arith.lean ====
section
/-! DEFINITION. The arithmetic the rules share: rounding, clamping, interpolation, the check word, and the
words of the link's layouts. -/

namespace Sys2Proof.Machine

/-- Round n/d to the nearest integer, ties away from zero (spec 00, Rounding): 5/2 gives 3, −5/2 gives
−3. The divisor may be negative; the rules never divide by 0. -/
def roundDiv (n d : Int) : Int :=
  n.sign * d.sign * (((2 * n.natAbs + d.natAbs) / (2 * d.natAbs) : Nat) : Int)

/-- Clamp to lo..hi (spec 00, Numbers and ranges). -/
def clampInt (lo hi x : Int) : Int := if x < lo then lo else if hi < x then hi else x

/-- A saturating counter raised by one (spec 00; R90, R163, R164). -/
def bump (n : Nat) : Nat := if n < Config.counterTop then n + 1 else n

/-- The value of a table of breakpoints at r (R96, R133): the first value up to the first temperature, the
last from the last temperature on, and between two the floor of the straight line. A reading equal to
an inner breakpoint takes its value (assumption 33). -/
def interpolate : List Breakpoint → Int → Int
  | [], _ => 0
  | [p], _ => p.value
  | p :: q :: rest, r =>
    if r ≤ p.t then p.value
    else if r < q.t then p.value + (q.value - p.value) * (r - p.t) / (q.t - p.t)
    else interpolate (q :: rest) r

/-- The entries rise strictly (R96, R110, R143). -/
def rising : List Int → Bool
  | [] => true
  | [_] => true
  | x :: y :: rest => decide (x < y) && rising (y :: rest)

/-- The entries never fall (R143). -/
def nonFalling : List Int → Bool
  | [] => true
  | [_] => true
  | x :: y :: rest => decide (x ≤ y) && nonFalling (y :: rest)

/-- Add two times, in lowest terms. -/
def Seconds.plus (s t : Seconds) : Seconds :=
  let n := s.num * t.den + t.num * s.den
  let d := s.den * t.den
  ⟨n / Nat.gcd n d, d / Nat.gcd n d⟩

/-! ### The check word (R163) -/

/-- One bit into the check-word register: shift toward the most significant end; where the bit shifted out
differs from the data bit, exclusive-or with 0x1021. -/
def crcBit (reg : Word) (bit : Bool) : Word :=
  if reg.getMsbD 0 != bit then (reg <<< 1) ^^^ 0x1021#16 else reg <<< 1

/-- One word, from bit 15 down to bit 0. -/
def crcWord (reg w : Word) : Word :=
  (List.range 16).foldl (fun c i => crcBit c (w.getMsbD i)) reg

/-- The check word of a message's words: the register starts at all ones, with no final inversion. -/
def checkWord (ws : List Word) : Word := ws.foldl crcWord 0xFFFF#16

/-! ### Words of the layouts (spec 10.8) -/

/-- The high and low bytes of a word. -/
def highByte (w : Word) : Byte := w.extractLsb' 8 8

def lowByte (w : Word) : Byte := w.extractLsb' 0 8

/-- A word of two bytes. -/
def wordOf (hi lo : Byte) : Word := hi ++ lo

/-- A signed two-word field, high word first. -/
def longOf (hi lo : Word) : Int := (hi ++ lo : BitVec 32).toInt

/-- An unsigned field; a value that does not fit is unstated (assumption 12). -/
def natWord (n : Nat) : Word := if n < 65536 then BitVec.ofNat 16 n else Config.unfitWord n

/-- A signed field, two's complement; a value that does not fit is unstated (assumption 12). -/
def intWord (i : Int) : Word :=
  if -32768 ≤ i ∧ i ≤ 32767 then BitVec.ofInt 16 i else Config.unfitWord i

/-- A flag or yes/no value: 1 for set, ON, YES or MUTE. -/
def flagWord (b : Bool) : Word := if b then 1#16 else 0#16

/-- An item that may be absent: a presence word, then its `n` values, 0 when absent. -/
def optWords {α : Type} (n : Nat) (f : α → List Word) : Option α → List Word
  | none => 0#16 :: List.replicate n 0#16
  | some x => 1#16 :: f x

/-- A yes/no field of a message: 0 or 1, anything else no value. -/
def yesNo (w : Word) : Option Bool :=
  if w = 0#16 then some false else if w = 1#16 then some true else none

end Sys2Proof.Machine
end

