-- ==== Sys2Proof/Machine/Defaults.lean ====
section
/-! DEFINITION. The values the chapters give for power-on reset, supply-dip reset and SOFT_RESET, as
constants, so that State.reset and the resets use the same ones. -/

namespace Sys2Proof.Machine

/-- A slot record after a reset: marked not complete (R3); the rest assumption 28. -/
def resetSlot : SlotRecord := ⟨⟨0, 0⟩, false, false, false, 0⟩

/-- The link receiver after power-on (R161, R3). -/
def powerOnLink : Link :=
  { present := false, timerRunning := false, lastParity := none, lastSize := none, badCheck := 0,
    inputSlot := .s0, readSlot := none, slot0 := resetSlot, slot1 := resetSlot,
    activeLines := 0, blankingSlots := 0 }

/-- The intake after a reset (R176). -/
def resetIntake : Intake :=
  { free := 32, urgent := [], motion := [], setup := [], slot := none, replies := [], dropped := 0 }

/-- The bits of the two flag words that name an event flag (spec 10.8): bits 0..14 of the first word, bits
0..13 of the second. -/
def flagBits : BitVec 32 := 0x3FFF7FFF#32

/-- The reply sender after power-on (R176). -/
def powerOnSender : Sender := ⟨0#32, flagBits, .none, none⟩

/-- The mute causes after power-on: STARTING alone (R15, R22). -/
def resetMutes : Mutes := ⟨true, false, false, false, false, false⟩

/-- The picture engine after power-on (R22). -/
def powerOnPicture : Picture :=
  { mode := .identity, orientation := .floor, mutes := resetMutes, lastLight := 0, outParity := .even,
    frame := none, panelOut := none }

def zeroMargins : Margins := ⟨0, 0, 0, 0⟩

/-- A never-committed bank (R24). -/
def resetBank : Bank := ⟨⟨3840, 2160⟩, .loaded, []⟩

/-- The table store after every reset (R24). -/
def resetTable : TableStore :=
  { bankA := resetBank, bankB := resetBank, active := .a, loadOpen := false, commit := none, auto := false,
    margins := zeroMargins, mismatch := none }

/-- The corner generator after every reset (R41). -/
def resetGen : Generator := ⟨none, none, .none⟩

/-- The default calibration records (R59). -/
def defaultCal : Axis → Cal
  | .v => ⟨12000, 24, .raise, 256, 6000, 3, 50, 8⟩
  | .h => ⟨6000, 16, .raise, 205, 3000, 3, 30, 8⟩
  | .f => ⟨4000, 8, .raise, 0, 2000, 3, 20, 8⟩

/-- The default profiles (R61). -/
def defaultProfiles : List Profile :=
  [⟨200, 400, 50⟩, ⟨400, 2000, 400⟩, ⟨400, 3000, 800⟩, ⟨300, 300, 0⟩]

/-- An axis unit after power-on (R58). -/
def powerOnAxis (a : Axis) : AxisUnit :=
  { phase := .unhomed, pos := 0, hostLock := false, protLock := false, cal := defaultCal a, ring := [],
    lastEnd := .none, dirOut := .raise, pulses := 0 }

def powerOnLens : Lens := ⟨⟨powerOnAxis .v, powerOnAxis .h, powerOnAxis .f⟩, defaultProfiles⟩

/-- The placement tracker after every reset (R84). -/
def resetPlacement : Placement :=
  { state := .none, ox := 0, oy := 0, posVt := 0, posHt := 0, outV := false, outH := false,
    shortV := false, shortH := false, settleDue := false,
    frame := ⟨0, 0, 0, 0, false, false, zeroMargins⟩, offTarget := 0 }

/-- The flat compensation table (R95). -/
def flatCompensation : List Breakpoint :=
  [⟨0, 0⟩, ⟨40, 0⟩, ⟨80, 0⟩, ⟨120, 0⟩, ⟨160, 0⟩, ⟨200, 0⟩, ⟨240, 0⟩, ⟨280, 0⟩]

/-- Focus upkeep after power-on (R95). -/
def powerOnFocus : Focus :=
  { upkeep := false, table := flatCompensation, desired := 0, applied := 0, base := 0, record := none }

/-- The default criteria index and trip temperature (R102). -/
def defaultIndex : Sensor → Nat
  | .laser => 9
  | .panel => 5
  | .dump => 10
  | .lens => 4

def defaultTrip : Sensor → Nat
  | .laser => 420
  | .panel => 300
  | .dump => 440
  | .lens => 280

/-- A sensor after power-on (R102). -/
def powerOnSensor (x : Sensor) : SensorUnit :=
  { window := 50, index := defaultIndex x, trip := defaultTrip x, pend := none, raw := none,
    reading := none, high := false, fault := false }

/-- The default criteria table: entry i is 160 + 20·i (R102). -/
def defaultCriteria : List Int := (List.range 16).map (fun i => 160 + 20 * (i : Int))

def powerOnSensors : Sensors :=
  ⟨⟨powerOnSensor .laser, powerOnSensor .panel, powerOnSensor .dump, powerOnSensor .lens⟩, defaultCriteria⟩

def zeroHeat : Heat := ⟨0, 0, 0⟩

/-- The light unit after every reset (R116). -/
def resetLight : Light :=
  { b := 0, d := 0, limit := 1000, split := zeroHeat, accN := 0, accSum := zeroHeat, avg := zeroHeat,
    avgFrames := false }

/-- The default fan records (R130). -/
def defaultFanRecord : Fan → FanRecord
  | .intake =>
    { sensor := .panel, zone := .none, gain := 0, quietCap := 400, stallSpeed := 300,
      floorSet := [⟨160, 200⟩, ⟨200, 250⟩, ⟨230, 350⟩, ⟨260, 500⟩, ⟨280, 700⟩, ⟨300, 1000⟩],
      ceilingSet := [⟨160, 220⟩, ⟨200, 280⟩, ⟨230, 400⟩, ⟨260, 560⟩, ⟨280, 760⟩, ⟨300, 1000⟩] }
  | .light =>
    { sensor := .laser, zone := .laser, gain := 800, quietCap := 450, stallSpeed := 300,
      floorSet := [⟨240, 200⟩, ⟨300, 310⟩, ⟨340, 470⟩, ⟨370, 620⟩, ⟨400, 820⟩, ⟨420, 1000⟩],
      ceilingSet := [⟨240, 220⟩, ⟨300, 330⟩, ⟨340, 490⟩, ⟨370, 650⟩, ⟨400, 850⟩, ⟨420, 1000⟩] }
  | .exhaust =>
    { sensor := .dump, zone := .dump, gain := 600, quietCap := 450, stallSpeed := 300,
      floorSet := [⟨280, 200⟩, ⟨320, 280⟩, ⟨360, 420⟩, ⟨390, 600⟩, ⟨420, 800⟩, ⟨440, 1000⟩],
      ceilingSet := [⟨280, 230⟩, ⟨320, 320⟩, ⟨360, 470⟩, ⟨390, 650⟩, ⟨420, 850⟩, ⟨440, 1000⟩] }

/-- A fan after power-on (R131). -/
def powerOnFan (f : Fan) : FanUnit :=
  { record := defaultFanRecord f, state := .stopped, duty := 0, spin := 0, history := [0, 0, 0, 0, 0],
    count := 0, speed := 0, stallRun := 0, recovery := 0, lastCurve := 0, lastFF := 0, lastDemand := 0,
    readingUsed := 0 }

def powerOnFans : Fans :=
  { quiet := false, floor := 0, capLifted := false, curveSet := .floor, reReport := false,
    units := ⟨powerOnFan .intake, powerOnFan .light, powerOnFan .exhaust⟩ }

/-- The default programmed levels (R147). -/
def defaultLevels : PerSource Nat :=
  { trip := 4, tempLaser := 2, tempPanel := 2, tempDump := 1, tempLens := 1, sensorFault := 3,
    stallIntake := 2, stallLight := 3, stallExhaust := 2, lensFault := 0, linkLoss := 1, memoryFault := 0 }

/-- The default action table (R151). -/
def defaultActions : ActionTable :=
  { level1 := ⟨800, 300, false, false, false⟩,
    level2 := ⟨500, 600, true, false, false⟩,
    level3 := ⟨200, 1000, true, true, false⟩ }

/-- The protection unit after every reset (R147). -/
def resetProtection : Protection :=
  { pending := ⟨false, false, false, false, false, false, false, false, false, false, false, false⟩,
    levels := defaultLevels, c := 0, cause := .none, table := defaultActions }

/-- The pins as State.reset takes them: switches open, no driver fault (assumption 7). -/
def quietPins : AxisPins := ⟨false, false⟩

end Sys2Proof.Machine
end

