-- ==== Sys2Proof/Machine/State.lean ====
section
/-! DEFINITION. The state of the part: every block's state (Machine/Types.lean), the waiting commands, and
the two closed lists of reasons a step can stop. INVENTORY.md lists every field with the rule that names
it. -/

namespace Sys2Proof.Machine

/-- The whole state. `pending` is the queue of commands not yet taken (first in, first out); the input pins
and the hold are the outside's levels as the part sees them. -/
structure State where
  pending : List Instr
  hold : Hold
  pins : PerAxis AxisPins
  startup : Startup
  link : Link
  mem : FrameMemory
  intake : Intake
  sender : Sender
  picture : Picture
  table : TableStore
  gen : Generator
  lens : Lens
  place : Placement
  focus : Focus
  sensors : Sensors
  light : Light
  fans : Fans
  prot : Protection
  deriving DecidableEq, Repr

/-- Why a step stops with a fault: never. No rule of the spec leaves a command of the table without an
effect (INVENTORY.md, Faults), so nothing raises one. -/
inductive Fault where
  deriving DecidableEq, Repr

/-- Why a step is refused. -/
inductive Refusal where
  /-- Raised only by an arm of Machine/Dispatch.lean for a command that has no meaning yet; there is none.
  Safe: the machine stops where the hardware goes on. -/
  | notModelled (mnemonic : String)
  deriving DecidableEq, Repr

/-- The machine right after power-on reset (R178): every block at its power-on values, the restart cause
POWER_ON, the part STARTING with the self-check RUNNING. -/
def State.reset : State :=
  { pending := []
    hold := ⟨false, false, false⟩
    pins := ⟨quietPins, quietPins, quietPins⟩
    startup := ⟨.starting, .running, .powerOn⟩
    link := powerOnLink
    mem := ⟨[], [], 0⟩
    intake := resetIntake
    sender := powerOnSender
    picture := powerOnPicture
    table := resetTable
    gen := resetGen
    lens := powerOnLens
    place := resetPlacement
    focus := powerOnFocus
    sensors := powerOnSensors
    light := resetLight
    fans := powerOnFans
    prot := resetProtection }

end Sys2Proof.Machine
end

