-- ==== Sys2Proof/Machine/Access.lean ====
section
/-! DEFINITION. Reading and writing one axis, sensor, fan, source, slot or bank of the state: every other
file goes through these. -/

namespace Sys2Proof.Machine

variable {α : Type}

def PerAxis.get (p : PerAxis α) : Axis → α
  | .v => p.v
  | .h => p.h
  | .f => p.f

def PerAxis.set (p : PerAxis α) (a : Axis) (x : α) : PerAxis α :=
  match a with
  | .v => { p with v := x }
  | .h => { p with h := x }
  | .f => { p with f := x }

def PerSensor.get (p : PerSensor α) : Sensor → α
  | .laser => p.laser
  | .panel => p.panel
  | .dump => p.dump
  | .lens => p.lens

def PerSensor.set (p : PerSensor α) (x : Sensor) (u : α) : PerSensor α :=
  match x with
  | .laser => { p with laser := u }
  | .panel => { p with panel := u }
  | .dump => { p with dump := u }
  | .lens => { p with lens := u }

def PerFan.get (p : PerFan α) : Fan → α
  | .intake => p.intake
  | .light => p.light
  | .exhaust => p.exhaust

def PerFan.set (p : PerFan α) (x : Fan) (u : α) : PerFan α :=
  match x with
  | .intake => { p with intake := u }
  | .light => { p with light := u }
  | .exhaust => { p with exhaust := u }

def PerFan.map {β : Type} (g : α → β) (p : PerFan α) : PerFan β := ⟨g p.intake, g p.light, g p.exhaust⟩

def PerSource.get (p : PerSource α) : Source → α
  | .trip => p.trip
  | .tempLaser => p.tempLaser
  | .tempPanel => p.tempPanel
  | .tempDump => p.tempDump
  | .tempLens => p.tempLens
  | .sensorFault => p.sensorFault
  | .stallIntake => p.stallIntake
  | .stallLight => p.stallLight
  | .stallExhaust => p.stallExhaust
  | .lensFault => p.lensFault
  | .linkLoss => p.linkLoss
  | .memoryFault => p.memoryFault

def PerSource.set (p : PerSource α) (x : Source) (y : α) : PerSource α :=
  match x with
  | .trip => { p with trip := y }
  | .tempLaser => { p with tempLaser := y }
  | .tempPanel => { p with tempPanel := y }
  | .tempDump => { p with tempDump := y }
  | .tempLens => { p with tempLens := y }
  | .sensorFault => { p with sensorFault := y }
  | .stallIntake => { p with stallIntake := y }
  | .stallLight => { p with stallLight := y }
  | .stallExhaust => { p with stallExhaust := y }
  | .lensFault => { p with lensFault := y }
  | .linkLoss => { p with linkLoss := y }
  | .memoryFault => { p with memoryFault := y }

/-- The numbers of spec 10.8. -/
def axisNumber : Axis → Nat
  | .v => 0
  | .h => 1
  | .f => 2

def sensorNumber : Sensor → Nat
  | .laser => 0
  | .panel => 1
  | .dump => 2
  | .lens => 3

def fanNumber : Fan → Nat
  | .intake => 0
  | .light => 1
  | .exhaust => 2

/-- The number of a source (R147). -/
def sourceNumber : Source → Nat
  | .trip => 0
  | .tempLaser => 1
  | .tempPanel => 2
  | .tempDump => 3
  | .tempLens => 4
  | .sensorFault => 5
  | .stallIntake => 6
  | .stallLight => 7
  | .stallExhaust => 8
  | .lensFault => 9
  | .linkLoss => 10
  | .memoryFault => 11

def allAxes : List Axis := [.v, .h, .f]

def allSensors : List Sensor := [.laser, .panel, .dump, .lens]

def allFans : List Fan := [.intake, .light, .exhaust]

/-- The sources in order of number (R147). -/
def allSources : List Source :=
  [.trip, .tempLaser, .tempPanel, .tempDump, .tempLens, .sensorFault, .stallIntake, .stallLight,
    .stallExhaust, .lensFault, .linkLoss, .memoryFault]

/-! ### Axes -/

def State.axis (s : State) (a : Axis) : AxisUnit := s.lens.axes.get a

def State.setAxis (s : State) (a : Axis) (u : AxisUnit) : State :=
  { s with lens := { s.lens with axes := s.lens.axes.set a u } }

def State.setPhase (s : State) (a : Axis) (p : Phase) : State :=
  s.setAxis a { s.axis a with phase := p }

def State.setLastEnd (s : State) (a : Axis) (e : LastEnd) : State :=
  s.setAxis a { s.axis a with lastEnd := e }

/-- Homed exactly in IDLE, MOVING, STOPPING and HOLDING (the table of R57). -/
def Phase.homed : Phase → Bool
  | .unhomed | .homing _ | .fault => false
  | .idle | .moving _ | .holding _ | .stopping _ _ _ => true

def AxisUnit.homed (u : AxisUnit) : Bool := u.phase.homed

/-- The move record, where the state has one (R57). -/
def Phase.record : Phase → Option MoveRec
  | .moving m | .holding m | .stopping m _ _ => some m
  | .unhomed | .homing _ | .idle | .fault => none

/-- MOVING, STOPPING or HOLDING. -/
def Phase.inMove (p : Phase) : Bool := p.record.isSome

def Phase.isHoming : Phase → Bool
  | .homing _ => true
  | .unhomed | .idle | .moving _ | .holding _ | .stopping _ _ _ | .fault => false

/-- Host lock or protection lock set (R75). -/
def AxisUnit.locked (u : AxisUnit) : Bool := u.hostLock || u.protLock

/-! ### Slots and banks -/

def otherSlot : SlotId → SlotId
  | .s0 => .s1
  | .s1 => .s0

def Link.slotRecord (l : Link) : SlotId → SlotRecord
  | .s0 => l.slot0
  | .s1 => l.slot1

def Link.setSlot (l : Link) (i : SlotId) (r : SlotRecord) : Link :=
  match i with
  | .s0 => { l with slot0 := r }
  | .s1 => { l with slot1 := r }

def otherBank : BankId → BankId
  | .a => .b
  | .b => .a

def TableStore.bank (t : TableStore) : BankId → Bank
  | .a => t.bankA
  | .b => t.bankB

def TableStore.setBank (t : TableStore) (i : BankId) (b : Bank) : TableStore :=
  match i with
  | .a => { t with bankA := b }
  | .b => { t with bankB := b }

def TableStore.activeBank (t : TableStore) : Bank := t.bank t.active

/-- The load bank: the bank that is not active (R23). -/
def TableStore.loadBank (t : TableStore) : Bank := t.bank (otherBank t.active)

def TableStore.setLoadBank (t : TableStore) (b : Bank) : TableStore := t.setBank (otherBank t.active) b

/-- The fixed formats: W in 640..3840 and H in 360..2160 (spec 00). -/
def Size.inFormats (z : Size) : Bool := 640 ≤ z.w && z.w ≤ 3840 && 360 ≤ z.h && z.h ≤ 2160

/-! ### The part as a whole -/

/-- A reset input holds the part (R178). -/
def Hold.held (h : Hold) : Bool := h.powerOn || h.supply

def State.starting (s : State) : Bool := s.startup.part == .starting

/-- The PWM output of a fan: its duty as it stands (R132), 0 while held in reset (R178). -/
def State.pwmOut (s : State) (x : Fan) : Nat := if s.hold.held then 0 else (s.fans.units.get x).duty

/-- The drive-level line: D as it stands (R128), 0 while held in reset (R178). -/
def State.driveLine (s : State) : Nat := if s.hold.held then 0 else s.light.d

/-- Some mute cause is in force (R15). -/
def Mutes.any (m : Mutes) : Bool := m.starting || m.memory || m.size || m.prot || m.host || m.link

end Sys2Proof.Machine
end

