-- ==== Sys2Proof/Machine/Flags.lean ====
section
/-! DEFINITION. The 29 event flags, the attention mask and the attention notice (spec 10.5). -/

namespace Sys2Proof.Machine

/-- The flag's bit over the two words, the first word in bits 15..0 (spec 10.8, Event flags). -/
def flagBit : EventFlag → Nat
  | .moveDone a => axisNumber a
  | .stopped a => 3 + axisNumber a
  | .axisFault a => 6 + axisNumber a
  | .slip a => 9 + axisNumber a
  | .homeDone a => 12 + axisNumber a
  | .homeFailed a => 16 + axisNumber a
  | .tableSwapped => 19
  | .genDone => 20
  | .genFailed => 21
  | .sizeMismatch => 22
  | .placeDone => 23
  | .levelChanged => 24
  | .sourcePending => 25
  | .dropped => 26
  | .linkLost => 27
  | .linkBack => 28
  | .ready => 29

/-- The flag is set. -/
def Sender.has (x : Sender) (e : EventFlag) : Bool := x.flags.getLsbD (flagBit e)

/-- Some masked-in flag is set (R171). -/
def Sender.attention (x : Sender) : Bool := x.flags &&& x.mask != 0#32

/-- A flag is set (R170). Where it was clear and is masked in, a notice in NONE becomes QUEUED (R171);
"Setting a flag that is already set changes nothing". -/
def Sender.raise (x : Sender) (e : EventFlag) : Sender :=
  if x.has e then x
  else
    { x with
      flags := x.flags ||| BitVec.twoPow 32 (flagBit e)
      notice := if x.notice == .none && x.mask.getLsbD (flagBit e) then .queued else x.notice }

def State.raise (s : State) (e : EventFlag) : State := { s with sender := s.sender.raise e }

/-- The notice after EVENT_ACK (R171, R172): whatever it was, QUEUED where a masked-in flag is left set,
else NONE. -/
def Sender.afterAck (x : Sender) : Sender :=
  { x with notice := if x.attention then .queued else .none }

/-- The notice after EVENT_MASK (R171, R173): a notice already SENT stays SENT. -/
def Sender.afterMask (x : Sender) : Sender :=
  { x with notice := if x.notice == .sent then .sent else if x.attention then .queued else .none }

/-- Two message words in the layout of the event flags, without the bits that name no flag (R172;
assumption 26). -/
def flagsOf (first second : Word) : BitVec 32 := (second ++ first : BitVec 32) &&& flagBits

/-- The two words of a flag set. -/
def flagWords (x : BitVec 32) : List Word := [x.extractLsb' 0 16, x.extractLsb' 16 16]

end Sys2Proof.Machine
end

