-- ==== Sys2Proof/Machine/Ops.lean ====
section
/-! DEFINITION. The operations that cross from block to block: what the placement tracker and focus upkeep
are told, the effect of a lock, the delivery of a level's actions, acceptance, making a source pending,
an axis fault, and the beginning and end of moves. They stand in this order because each calls the ones
before it. -/

namespace Sys2Proof.Machine

/-! ### The placement tracker and focus upkeep are told -/

/-- The placement ends without a decision (R92, R93): NONE, with every flag clear. -/
def Placement.cancelled (p : Placement) : Placement :=
  { p with state := .none, outV := false, outH := false, shortV := false, shortH := false,
           settleDue := false }

/-- The end of an axis's placement move is reported (R87); `short` where it did not complete. Acted on in
TRACKING; in SETTLED, PARTIAL and NONE the report is ignored (assumption 29). -/
def Placement.moveEnded (p : Placement) (a : Axis) (short : Bool) : Placement :=
  match p.state, a with
  | .tracking, .v =>
    { p with outV := false, shortV := p.shortV || short, settleDue := p.settleDue || !p.outH }
  | .tracking, .h =>
    { p with outH := false, shortH := p.shortH || short, settleDue := p.settleDue || !p.outV }
  | .tracking, .f | .none, _ | .settled, _ | .partly, _ => p

/-- The end of a move by a stop or a limit closure is reported by owner (R72, R75, R77, R87, R100). -/
def State.reportStopped (s : State) (a : Axis) : Owner → State
  | .commanded => s
  | .placement => { s with place := s.place.moveEnded a true }
  | .upkeep => { s with focus := { s.focus with record := none } }

/-- The completion of a move is made known by owner (R67, R87, R100). -/
def State.reportCompleted (s : State) (a : Axis) : Owner → State
  | .commanded => s.raise (.moveDone a)
  | .placement => { s with place := s.place.moveEnded a false }
  | .upkeep =>
    { s with focus := { s.focus with applied := s.focus.record.getD s.focus.applied, record := none } }

/-- The axis enters UNHOMED, HOMING or FAULT and its homed flag clears (R57): position 0, the move record
discarded, the ring emptied; on V and H the placement ends (R93), on F base and applied compensation
become 0 and the upkeep record is discarded (R98, R100). -/
def State.clearHomed (s : State) (a : Axis) (p : Phase) : State :=
  let t := s.setAxis a { s.axis a with phase := p, pos := 0, ring := [] }
  match a with
  | .v | .h => { t with place := t.place.cancelled }
  | .f => { t with focus := { t.focus with base := 0, applied := 0, record := none } }

/-! ### Standing, and the effect of a lock -/

def HaltReason.toStop : HaltReason → StopReason
  | .host => .host
  | .locked => .locked

def HaltReason.toHomeFailure : HaltReason → HomeFailure
  | .host => .stopped
  | .locked => .locked

/-- A stopped move's axis stands (R71, R72, R75): the record is discarded, the axis is IDLE, STOPPED is
set, and the stop is reported to the owner. -/
def State.standIdle (s : State) (a : Axis) (r : HaltReason) (m : MoveRec) : State :=
  ((s.setAxis a { s.axis a with phase := .idle, lastEnd := .stopped r.toStop }).raise
    (.stopped a)).reportStopped a m.owner

/-- A stopped homing sequence stands (R72, R75, R183): UNHOMED with HOME_FAILED. -/
def State.standUnhomed (s : State) (a : Axis) (r : HaltReason) : State :=
  ((s.clearHomed a .unhomed).setLastEnd a (.homeFailed r.toHomeFailure)).raise (.homeFailed a)

/-- A MOVING axis begins to decelerate toward IDLE (R71): as many further steps as the ramp index of the
last step issued in the leg, or at once where that is 0. -/
def State.haltMove (s : State) (a : Axis) (r : HaltReason) (m : MoveRec) : State :=
  if m.lastIndex = 0 then s.standIdle a r m else s.setPhase a (.stopping m (.idle r) m.lastIndex)

/-- A homing sequence begins to decelerate (R72, R75, R183); one already decelerating goes on with its own
reason (assumption 23). -/
def State.haltHoming (s : State) (a : Axis) (r : HaltReason) (run : HomingRun) : State :=
  match run.halt with
  | some _ => s
  | none =>
    if run.lastIndex = 0 then s.standUnhomed a r
    else s.setPhase a (.homing { run with halt := some (r, run.lastIndex) })

/-- The effect on an axis of a lock becoming set while the other is clear (the table of R75). -/
def State.lockEffect (s : State) (a : Axis) : State :=
  match (s.axis a).phase with
  | .moving m => s.haltMove a .locked m
  | .stopping m .holding left => s.setPhase a (.stopping m (.idle .locked) left)
  | .stopping m (.retarget _) left => s.setPhase a (.stopping m (.idle .locked) left)
  | .stopping _ (.idle _) _ => s
  | .holding m => s.standIdle a .locked m
  | .homing run => s.haltHoming a .locked run
  | .idle | .unhomed | .fault => s

/-- The host lock is set or cleared (R75). -/
def State.setHostLock (s : State) (a : Axis) (on : Bool) : State :=
  let t := s.setAxis a { s.axis a with hostLock := on }
  if on && !(s.axis a).locked then t.lockEffect a else t

/-- The protection lock is set or cleared (R75, R153). -/
def State.setProtLock (s : State) (a : Axis) (on : Bool) : State :=
  let t := s.setAxis a { s.axis a with protLock := on }
  if on && !(s.axis a).locked then t.lockEffect a else t

/-! ### Delivery of a level's actions (R153) -/

/-- The actions of a level; those of levels 0 and 4 are fixed (R151). -/
def ActionTable.actions (t : ActionTable) : Nat → Actions
  | 0 => ⟨1000, 0, false, false, false⟩
  | 1 => t.level1
  | 2 => t.level2
  | 3 => t.level3
  | _ => ⟨0, 1000, true, true, true⟩

/-- The light limit is delivered (R120). -/
def Light.deliver (x : Light) (limit : Nat) : Light := { x with limit := limit, d := min x.d limit }

/-- The fan floor is met at once by one fan (R141). -/
def FanUnit.meetFloor (x : FanUnit) (floor : Nat) : FanUnit :=
  if x.duty < floor then
    match x.state with
    | .running | .stalled => { x with duty := floor }
    | .stopped => { x with state := .spinup, duty := 1000, spin := 0 }
    | .spinup => x
  else x

/-- The fan floor and the cap lifting are delivered (R141). -/
def Fans.deliver (x : Fans) (floor : Nat) (lifted : Bool) : Fans :=
  { x with floor := floor, capLifted := lifted, units := x.units.map (FanUnit.meetFloor · floor) }

/-- A mute cause has come into force: the rest of the frame in flight is black (R15, R16). -/
def Picture.blacken (x : Picture) : Picture :=
  { x with frame := x.frame.map (fun f => { f with black := true }) }

/-- The picture action is delivered (R16, R153). -/
def Picture.deliver (x : Picture) (mute : Bool) : Picture :=
  if mute then Picture.blacken { x with mutes := { x.mutes with prot := true } }
  else { x with mutes := { x.mutes with prot := false } }

/-- A delivery of the current level's actions to its four consumers (R153). -/
def State.deliver (s : State) : State :=
  let a := s.prot.table.actions s.prot.c
  let t := { s with light := s.light.deliver a.limit, fans := s.fans.deliver a.floor a.capLifted,
                    picture := s.picture.deliver a.mute }
  ((t.setProtLock .v a.lensLock).setProtLock .h a.lensLock).setProtLock .f a.lensLock

/-! ### Acceptance and pending sources -/

/-- The highest programmed level of the pending sources, 0 without one. -/
def Protection.topLevel (p : Protection) : Nat :=
  allSources.foldl (fun m x => if p.pending.get x then max m (p.levels.get x) else m) 0

/-- The lowest-numbered pending source of a level (R150, R157). -/
def Protection.causeAt (p : Protection) (c : Nat) : LevelCause :=
  match allSources.find? (fun x => p.pending.get x && p.levels.get x == c) with
  | some x => .source x
  | none => .none

/-- An acceptance (R150): where a pending source asks for more than C, C becomes the highest level asked
for, the cause its lowest-numbered source, LEVEL_CHANGED is set and the actions are delivered. -/
def State.accept (s : State) : State :=
  if s.prot.c < s.prot.topLevel then
    let c := s.prot.topLevel
    (State.raise { s with prot := { s.prot with c := c, cause := s.prot.causeAt c } } .levelChanged).deliver
  else s

/-- An owning block makes a source pending (R148). -/
def State.makePending (s : State) (x : Source) : State :=
  if s.prot.pending.get x then s
  else
    (State.raise { s with prot := { s.prot with pending := s.prot.pending.set x true } }
      .sourcePending).accept

/-! ### Axis faults -/

/-- A timeout or driver fault (R78, R79): FAULT at once, AXIS_FAULT set, LENS_FAULT pending; a homing
sequence ended so also sets HOME_FAILED (R183). An axis already in FAULT is not changed. -/
def State.enterFault (s : State) (a : Axis) (r : FaultReason) : State :=
  match (s.axis a).phase with
  | .fault => s
  | .homing _ =>
    (((((s.clearHomed a .fault).setLastEnd a (.fault r)).raise (.homeFailed a)).raise
      (.axisFault a)).makePending .lensFault)
  | .unhomed | .idle | .moving _ | .holding _ | .stopping _ _ _ =>
    ((((s.clearHomed a .fault).setLastEnd a (.fault r)).raise (.axisFault a)).makePending .lensFault)

/-- At the beginning of a leg the driver fault input is examined (R79). -/
def State.checkDriver (s : State) (a : Axis) : State :=
  if (s.pins.get a).driverFault then s.enterFault a .driver else s

/-! ### Moves -/

/-- The final approach direction (R64): from the install orientation for V, from the calibration record
for H and F. -/
def State.approach (s : State) (a : Axis) : Dir :=
  match a with
  | .v => match s.picture.orientation with
    | .floor => .raise
    | .ceiling => .lower
  | .h | .f => (s.axis a).cal.approach

/-- The legs of a move from p to t (the table of R64). -/
def legsOf (p t backlash top : Nat) (approach : Dir) : List Leg :=
  if p < t then
    match approach with
    | .raise => [⟨t, .raise⟩]
    | .lower =>
      let o := min top (t + backlash)
      if o = t then [⟨t, .raise⟩] else [⟨o, .raise⟩, ⟨t, .lower⟩]
  else if t < p then
    match approach with
    | .lower => [⟨t, .lower⟩]
    | .raise =>
      let o := t - backlash
      if o = t then [⟨t, .lower⟩] else [⟨o, .lower⟩, ⟨t, .raise⟩]
  else []

/-- The move completes (R67): IDLE, the record discarded, then made known by owner. -/
def State.completeMove (s : State) (a : Axis) (o : Owner) : State :=
  (s.setAxis a { s.axis a with phase := .idle, lastEnd := .completed }).reportCompleted a o

/-- Leg number `current` of the record begins (R65, R74, R79): MOVING with the leg timer at 0 and no step
of it issued, the direction output driven (R63), and then the driver fault input examined; that a leg which
finds it asserted has already driven the direction is the model's choice (assumption 35). -/
def State.beginLeg (s : State) (a : Axis) (m : MoveRec) (current : Nat) : State :=
  let dir := match m.legs[current - 1]? with
    | some leg => leg.dir
    | none => (s.axis a).dirOut
  (s.setAxis a { s.axis a with
      phase := .moving { m with current := current, k := 0, lastIndex := 0, timer := ⟨0, 1⟩ }
      dirOut := dir }).checkDriver a

/-- Profile number n (R61). -/
def Lens.profile (l : Lens) (n : Nat) : Profile := l.profiles.getD n ⟨300, 300, 0⟩

/-- A move of any owner begins (R64, R65): the record is made from the present position; without legs the
move completes at once. -/
def State.beginMove (s : State) (a : Axis) (target : Nat) (o : Owner) (profileNo : Nat) : State :=
  let u := s.axis a
  match legsOf u.pos target u.cal.backlash u.cal.max (s.approach a) with
  | [] => s.completeMove a o
  | leg :: legs =>
    s.beginLeg a
      { target := target, owner := o, profileNo := profileNo, profile := s.lens.profile profileNo,
        legs := leg :: legs, current := 1, k := 0, lastIndex := 0, timer := ⟨0, 1⟩ } 1

/-- A decelerating axis stands and acts on its stop intent (the table of R71). A held record stays whole, its
current leg pointing at the first of the legs that remain (R73; assumption 34). A retarget found locked
ends as the lock would have ended it (R75, R76; assumption 24). -/
def State.stand (s : State) (a : Axis) (intent : StopIntent) (m : MoveRec) : State :=
  match intent with
  | .idle r => s.standIdle a r m
  | .holding => s.setPhase a (.holding m)
  | .retarget t => if (s.axis a).locked then s.standIdle a .locked m else s.beginMove a t .placement 1

/-- A MOVING axis is brought to a stand with a stop intent (R71). -/
def State.decelerate (s : State) (a : Axis) (intent : StopIntent) (m : MoveRec) : State :=
  if m.lastIndex = 0 then s.stand a intent m else s.setPhase a (.stopping m intent m.lastIndex)

/-! ### Homing legs (R182) -/

/-- The run of a homing leg: its bound, and the homing profile as it stands when the leg begins. -/
def State.homingLeg (s : State) (a : Axis) (p : HomingPhase) : HomingRun :=
  let cal := (s.axis a).cal
  { phase := p
    bound := match p with
      | .seek => cal.max * 11 / 10
      | .backoff => cal.backlash + 256
    profile := s.lens.profile cal.homingProfile
    steps := 0, lastIndex := 0, halt := none }

/-- SEEK runs by decreasing steps, BACKOFF by increasing steps. -/
def HomingPhase.dir : HomingPhase → Dir
  | .seek => .lower
  | .backoff => .raise

end Sys2Proof.Machine
end

