-- ==== Sys2Proof/Machine/Messages.lean ====
section
/-! DEFINITION. Blanking messages, envelopes, the three command queues, the executor slot, the replies and
the return lane (spec 10.2 to 10.4 and 10.8). -/

namespace Sys2Proof.Machine

/-! ### Kinds (R165) -/

/-- The class of a kind code (R165): every code not in the table waits in SETUP. -/
def classOf (kind : Byte) : MsgClass :=
  if 0x01 ≤ kind.toNat ∧ kind.toNat ≤ 0x06 then .urgent
  else if 0x10 ≤ kind.toNat ∧ kind.toNat ≤ 0x18 then .motion
  else .setup

/-- The codes the table of R165 assigns. -/
def assignedKinds : List Byte :=
  [0x01#8, 0x02#8, 0x03#8, 0x04#8, 0x05#8, 0x06#8,
   0x10#8, 0x11#8, 0x12#8, 0x13#8, 0x14#8, 0x15#8, 0x16#8, 0x17#8, 0x18#8,
   0x20#8, 0x21#8, 0x22#8, 0x23#8, 0x24#8, 0x30#8, 0x31#8, 0x32#8, 0x33#8,
   0x40#8, 0x41#8, 0x42#8, 0x43#8, 0x44#8, 0x45#8, 0x50#8, 0x51#8, 0x60#8, 0x61#8]

/-! ### A message slot (R162, spec 10.8) -/

/-- What an examined slot holds. -/
inductive SlotRead where
  | empty
  | bad
  | good (e : Envelope)
  deriving DecidableEq, Repr

/-- Reads a slot (R162): kind 0 is an empty slot; a length above 62 or a check word that differs is
discarded. -/
def readSlot (words : List Word) : SlotRead :=
  let w0 := words.getD 0 0#16
  let w1 := words.getD 1 0#16
  let len := (lowByte w1).toNat
  if highByte w0 = 0#8 then .empty
  else if Config.payloadWords < len then .bad
  else if checkWord (words.take (len + 2)) = words.getD (len + 2) 0#16 then
    .good ⟨highByte w0, lowByte w0, highByte w1, (words.drop 2).take len⟩
  else .bad

/-- The words of a message, header, payload and check word (spec 10.8); the inverse of `readSlot`. -/
def slotWords (e : Envelope) : List Word :=
  let body := wordOf e.kind e.tag :: wordOf e.flags (BitVec.ofNat 8 e.payload.length) :: e.payload
  body ++ [checkWord body]

/-! ### Queues and the executor -/

/-- The message joins the tail of the queue of its class (R164). -/
def Intake.enqueue (i : Intake) (e : Envelope) : Intake :=
  match classOf e.kind with
  | .urgent => { i with urgent := i.urgent ++ [e] }
  | .motion => { i with motion := i.motion ++ [e] }
  | .setup => { i with setup := i.setup ++ [e] }

/-- An empty executor slot takes the head of URGENT, else of MOTION, else of SETUP (R166). -/
def Intake.takeNext (i : Intake) : Intake :=
  match i.slot, i.urgent, i.motion, i.setup with
  | some _, _, _, _ => i
  | none, e :: rest, _, _ => { i with slot := some e, urgent := rest }
  | none, [], e :: rest, _ => { i with slot := some e, motion := rest }
  | none, [], [], e :: rest => { i with slot := some e, setup := rest }
  | none, [], [], [] => i

/-- A good message takes a free envelope, or is dropped (R164). -/
def State.arrive (s : State) (e : Envelope) : State :=
  if s.intake.free = 0 then
    State.raise { s with intake := { s.intake with dropped := bump s.intake.dropped } } .dropped
  else
    { s with intake := (Intake.enqueue { s.intake with free := s.intake.free - 1 } e).takeNext }

/-- The message asks for a reply on DONE: bit 8 of word 1, the lowest of the flags byte (spec 10.8). -/
def Envelope.replyOnDone (e : Envelope) : Bool := e.flags.getLsbD 0

/-- An execution ends (R166, R167): the slot is emptied; the envelope joins the reply queue with its
outcome, or returns to the pool where the outcome is DONE and REPLY_ON_DONE is clear; the executor
takes the next head. -/
def Intake.finish (i : Intake) (e : Envelope) (o : MsgOutcome) : Intake :=
  if o = .done ∧ e.replyOnDone = false then
    Intake.takeNext { i with slot := none, free := i.free + 1 }
  else
    Intake.takeNext { i with slot := none, replies := i.replies ++ [⟨e.kind, e.tag, o, 0⟩] }

/-- The state the executor leaves after a command's own effect and outcome. -/
def State.finish (r : State × MsgOutcome) (e : Envelope) : State :=
  { r.1 with intake := r.1.intake.finish e r.2 }

/-! ### Running a command -/

/-- A command that is an event: while the part is held in reset it does nothing (R178). -/
def whenReleased (s : State) (f : State → State) : Host.Outcome State Fault Refusal :=
  .next (if s.hold.held then s else f s)

/-- A command that ends the execution of a message: the envelope in the executor slot is carried out if it
is one of this command's kind, and its outcome is written. Where the slot holds none, no such execution
is under way and nothing happens (assumptions 1 and 2). -/
def runMessage (s : State) (mine : Envelope → Bool) (body : List Word → State → State × MsgOutcome) :
    Host.Outcome State Fault Refusal :=
  whenReleased s fun s =>
    match s.intake.slot with
    | some e => if mine e then State.finish (body e.payload s) e else s
    | none => s

/-- The envelope's kind is this code. -/
def ofKind (code : Byte) (e : Envelope) : Bool := e.kind == code

/-- The first checks most messages share: NOT_READY while STARTING, then BAD_FIELD where the payload gives
no fields. -/
def readyThen {φ : Type} (fields : Option φ) (k : φ → State → State × MsgOutcome) (s : State) :
    State × MsgOutcome :=
  if s.starting then (s, .refused .notReady)
  else match fields with
    | none => (s, .refused .badField)
    | some x => k x s

/-- The same for the messages taken in every part state. -/
def fieldsThen {φ : Type} (fields : Option φ) (k : φ → State → State × MsgOutcome) (s : State) :
    State × MsgOutcome :=
  match fields with
  | none => (s, .refused .badField)
  | some x => k x s

/-! ### Replies and the return lane (R168, R169, spec 10.8) -/

def reasonCode : Reason → Nat
  | .busy => 1
  | .locked => 2
  | .notHomed => 3
  | .notReady => 4
  | .badField => 5
  | .badState => 6
  | .badTable => 7
  | .nothing => 8
  | .unknown => 9

def testCode : TableTest → Nat
  | .kind => 1
  | .range => 2
  | .order => 3
  | .rowSpan => 4

/-- The outcome's code. -/
def MsgOutcome.code : MsgOutcome → Nat
  | .done => 0
  | .clamped _ => 1
  | .refused _ | .badTable _ _ => 2
  | .data _ => 3

/-- The reason's code, 0 unless REFUSED. -/
def MsgOutcome.reason : MsgOutcome → Nat
  | .done | .clamped _ | .data _ => 0
  | .refused r => reasonCode r
  | .badTable _ _ => reasonCode .badTable

/-- The words of the reply's payload (the table of R167). -/
def MsgOutcome.words : MsgOutcome → List Word
  | .done | .refused _ => []
  | .clamped w => [w]
  | .badTable line t => [natWord line, BitVec.ofNat 16 (testCode t)]
  | .data items => items

/-- The payload of part number n (R169). -/
def Reply.part (r : Reply) (n : Nat) : List Word :=
  (r.outcome.words.drop (Config.payloadWords * n)).take Config.payloadWords

/-- Further parts follow part n (R169). -/
def Reply.more (r : Reply) (n : Nat) : Bool := Config.payloadWords * (n + 1) < r.outcome.words.length

/-- A return-lane message: three header words, payload, check word. -/
def laneMessage (kindOfMessage : Nat) (tag kind : Byte) (more : Bool) (outcome reason part : Nat)
    (payload : List Word) : List Word :=
  let low : Byte := BitVec.ofNat 8 ((if more then 128 else 0) + payload.length)
  let third : Word := BitVec.ofNat 16 (outcome * 4096 + reason * 256 + part % 256)
  let body := wordOf (BitVec.ofNat 8 kindOfMessage) tag :: wordOf kind low :: third :: payload
  body ++ [checkWord body]

/-- The next part of a reply, as sent. -/
def Reply.message (r : Reply) : List Word :=
  laneMessage 1 r.tag r.kind (r.more r.sent) r.outcome.code r.outcome.reason r.sent (r.part r.sent)

/-- The attention notice as sent: the 29 flags as they stand (R171). -/
def Sender.noticeMessage (x : Sender) : List Word := laneMessage 2 0#8 0#8 false 0 0 0 (flagWords x.flags)

/-- What a send opportunity with the ready line high sends (R168): a QUEUED notice, else the next part of
the reply at the head, whose last part frees its envelope, else nothing. -/
def State.send (s : State) : State :=
  if s.sender.notice = .queued then
    { s with sender := { s.sender with notice := .sent, laneOut := some s.sender.noticeMessage } }
  else match s.intake.replies with
    | [] => { s with sender := { s.sender with laneOut := none } }
    | r :: rest =>
      { s with
        sender := { s.sender with laneOut := some r.message }
        intake :=
          if r.more r.sent then { s.intake with replies := { r with sent := r.sent + 1 } :: rest }
          else { s.intake with replies := rest, free := s.intake.free + 1 } }

end Sys2Proof.Machine
end

