-- ==== Sys2Proof/Machine/Operands.lean ====
section
/-! DEFINITION. The operand forms: the fields of each message's payload. A function here answers none where
the message's rule refuses BAD_FIELD for its length or for a field outside its range. -/

namespace Sys2Proof.Machine

/-! ### Single fields (codes of spec 10.8) -/

def axisOf (w : Word) : Option Axis :=
  if w = 0#16 then some .v else if w = 1#16 then some .h else if w = 2#16 then some .f else none

def sensorOf (w : Word) : Option Sensor :=
  if w = 0#16 then some .laser else if w = 1#16 then some .panel
  else if w = 2#16 then some .dump else if w = 3#16 then some .lens else none

def fanOf (w : Word) : Option Fan :=
  if w = 0#16 then some .intake else if w = 1#16 then some .light
  else if w = 2#16 then some .exhaust else none

def modeOf (w : Word) : Option PictureMode :=
  if w = 0#16 then some .identity else if w = 1#16 then some .table
  else if w = 2#16 then some .grid else if w = 3#16 then some .mute else none

def orientationOf (w : Word) : Option Orientation :=
  if w = 0#16 then some .floor else if w = 1#16 then some .ceiling else none

def parityCondOf (w : Word) : Option ParityCond :=
  if w = 0#16 then some .any else if w = 1#16 then some .even else if w = 2#16 then some .odd else none

def zoneOf (w : Word) : Option Zone :=
  if w = 0#16 then some .laser else if w = 1#16 then some .dump
  else if w = 2#16 then some .lens else if w = 3#16 then some .none else none

def dirOf (w : Word) : Option Dir :=
  if w = 0#16 then some .raise else if w = 1#16 then some .lower else none

/-- A source number (R147). -/
def sourceOf (w : Word) : Option Source := allSources[w.toNat]?

/-- An unsigned field no greater than its top. -/
def upTo (top : Nat) (w : Word) : Option Nat := if w.toNat ≤ top then some w.toNat else none

/-- An unsigned field within lo..hi. -/
def within (lo hi : Nat) (w : Word) : Option Nat :=
  if lo ≤ w.toNat ∧ w.toNat ≤ hi then some w.toNat else none

/-- A signed field within lo..hi. -/
def signedWithin (lo hi : Int) (w : Word) : Option Int :=
  if lo ≤ w.toInt ∧ w.toInt ≤ hi then some w.toInt else none

/-- All fields, or none where one is missing. -/
def allSome {α : Type} : List (Option α) → Option (List α)
  | [] => some []
  | none :: _ => none
  | some x :: rest => (allSome rest).map (x :: ·)

/-- A payload of one field. -/
def oneField {α : Type} (f : Word → Option α) : List Word → Option α
  | [w] => f w
  | _ => none

/-! ### Payloads -/

/-- STOP, HOLD, RESUME, RETURN, LOCK, UNLOCK: an axis (R70, R72 to R75). -/
def axisField : List Word → Option Axis := oneField axisOf

structure MoveFields where
  axis : Axis
  target : Nat
  profile : Nat
  deriving DecidableEq, Repr

/-- MOVE: an axis, a target of 0..65535 and a profile number (R66). -/
def moveFields : List Word → Option MoveFields
  | [a, t, p] => do return ⟨← axisOf a, t.toNat, ← upTo 3 p⟩
  | _ => none

/-- LENS_CAL: an axis and a complete calibration record in the order of R59 (R60). -/
def lensCalFields : List Word → Option (Axis × Cal)
  | [a, top, backlash, approach, pps, ref, profile, timeout, slip] => do
    let axis ← axisOf a
    let max ← within 100 65000 top
    let backlash ← upTo 255 backlash
    let approach ← dirOf approach
    let pps ← signedWithin (-4096) 4096 pps
    let ref ← upTo max ref
    let profile ← upTo 3 profile
    let timeout ← within 1 60 timeout
    let slip ← upTo 255 slip
    if pps = 0 ∧ axis ≠ .f then none
    else some (axis, ⟨max, backlash, approach, pps, ref, profile, timeout, slip⟩)
  | _ => none

/-- PROFILE: a number and the three values (R61). -/
def profileFields : List Word → Option (Nat × Profile)
  | [n, start, top, ramp] => do
    let n ← upTo 3 n
    let start ← within 100 2000 start
    let top ← within start 4000 top
    let ramp ← upTo 2000 ramp
    return (n, ⟨start, top, ramp⟩)
  | _ => none

/-- HOME: a non-empty axis set in bits 0, 1 and 2 (R181). -/
def homeFields : List Word → Option (List Axis)
  | [w] =>
    if w = 0#16 ∨ 8 ≤ w.toNat then none
    else some (allAxes.filter (fun a => w.getLsbD (axisNumber a)))
  | _ => none

/-- PLACE: ox and oy (R85). -/
def placeFields : List Word → Option (Int × Int)
  | [x, y] => do return (← signedWithin (-3840) 3840 x, ← signedWithin (-2160) 2160 y)
  | _ => none

/-- PLACE_CANCEL: no field (R92). -/
def noField : List Word → Option Unit
  | [] => some ()
  | _ => none

/-- TABLE_OPEN: a declared source size within the fixed formats (R26). -/
def tableOpenFields : List Word → Option Size
  | [w, h] => do return ⟨← within 640 3840 w, ← within 360 2160 h⟩
  | _ => none

/-- Line records of 11 words each (spec 10.8), every field as delivered (R25). -/
def recordsOf : List Word → Option (List LineRecord)
  | [] => some []
  | kind :: xl :: xr :: u1 :: u0 :: a1 :: a0 :: v1 :: v0 :: b1 :: b0 :: rest =>
    (recordsOf rest).map
      (⟨kind.toNat, xl.toNat, xr.toNat, longOf u1 u0, longOf a1 a0, longOf v1 v0, longOf b1 b0⟩ :: ·)
  | _ => none

/-- TABLE_RUN: a start line and one to five records that fit the bank (R27). -/
def tableRunFields : List Word → Option (Nat × List LineRecord)
  | [] => none
  | start :: rest => do
    let recs ← recordsOf rest
    if 1 ≤ recs.length ∧ recs.length ≤ 5 ∧ start.toNat < Config.panelRows
        ∧ start.toNat + recs.length ≤ Config.panelRows then
      some (start.toNat, recs)
    else none

/-- A corner on the panel. -/
def pointOf (x y : Word) : Option Point := do
  return ⟨← signedWithin 0 3839 x, ← signedWithin 0 2159 y⟩

/-- CORNERS: four corners on the panel, in order (the two BAD_FIELD lines of R42). -/
def cornersFields : List Word → Option CornerSet
  | [a, b, c, d, e, f, g, h] => do
    let tl ← pointOf a b
    let tr ← pointOf c d
    let bl ← pointOf e f
    let br ← pointOf g h
    if tr.x ≤ tl.x ∨ br.x ≤ bl.x ∨ bl.y ≤ tl.y ∨ br.y ≤ tr.y then none else some ⟨tl, tr, bl, br⟩
  | _ => none

/-- Breakpoints of a temperature and a value each. -/
def breakpointsOf (value : Word → Option Int) : List Word → Option (List Breakpoint)
  | [] => some []
  | [_] => none
  | t :: x :: rest => do
    let t ← signedWithin (-160) 600 t
    let x ← value x
    let more ← breakpointsOf value rest
    return ⟨t, x⟩ :: more

/-- FOCUS_TABLE: eight breakpoints, temperatures strictly increasing (R96). -/
def focusTableFields (p : List Word) : Option (List Breakpoint) := do
  let table ← breakpointsOf (signedWithin (-500) 500) p
  if table.length = 8 ∧ rising (table.map (·.t)) = true then some table else none

/-- SENSOR_SET: a sensor, a window length still to be clamped, a criteria index and a trip temperature
(R111). -/
def sensorSetFields : List Word → Option (Sensor × Nat × Nat × Nat)
  | [x, window, index, trip] => do
    return (← sensorOf x, window.toNat, ← upTo 15 index, ← upTo 600 trip)
  | _ => none

/-- THRESHOLDS: 16 temperatures, strictly increasing (R110). -/
def thresholdsFields (p : List Word) : Option (List Int) := do
  let ts ← allSome (p.map (signedWithin (-160) 600))
  if ts.length = 16 ∧ rising ts = true then some ts else none

/-- FAN_CURVE: a fan, a set and six breakpoints (R143). -/
def fanCurveFields : List Word → Option (Fan × Orientation × List Breakpoint)
  | fan :: set :: rest => do
    let fan ← fanOf fan
    let set ← orientationOf set
    let table ← breakpointsOf (signedWithin 0 1000) rest
    if table.length = 6 ∧ rising (table.map (·.t)) = true ∧ nonFalling (table.map (·.value)) = true then
      some (fan, set, table)
    else none
  | _ => none

structure FanLimitsFields where
  fan : Fan
  sensor : Sensor
  zone : Zone
  gain : Nat
  quietCap : Nat
  stallSpeed : Nat
  deriving DecidableEq, Repr

/-- FAN_LIMITS: six fields, the quiet cap still to be clamped from below (R144). -/
def fanLimitsFields : List Word → Option FanLimitsFields
  | [fan, sensor, zone, gain, cap, stall] => do
    return ⟨← fanOf fan, ← sensorOf sensor, ← zoneOf zone, ← upTo 1000 gain, ← upTo 1000 cap,
      ← upTo 20000 stall⟩
  | _ => none

/-- LEVELS: eleven levels of 0..3, for sources 1 to 11 (R149); TRIP keeps its fixed level 4. -/
def levelsFields (p : List Word) : Option (PerSource Nat) := do
  match ← allSome (p.map (upTo 3)) with
  | [a, b, c, d, e, f, g, h, i, j, k] => some ⟨4, a, b, c, d, e, f, g, h, i, j, k⟩
  | _ => none

/-- The five actions of one level (R152). -/
def actionsOf (limit floor lifted lock picture : Word) : Option Actions := do
  return ⟨← upTo 1000 limit, ← upTo 1000 floor, ← yesNo lifted, ← yesNo lock, ← yesNo picture⟩

/-- Level x may be followed by level y in a monotone table (R152). -/
def Actions.below (x y : Actions) : Bool :=
  decide (y.limit ≤ x.limit) && decide (x.floor ≤ y.floor) && (!x.capLifted || y.capLifted)
    && (!x.lensLock || y.lensLock) && (!x.mute || y.mute)

/-- ACTIONS: fifteen fields, a monotone table (R152). -/
def actionsFields : List Word → Option ActionTable
  | [a1, a2, a3, a4, a5, b1, b2, b3, b4, b5, c1, c2, c3, c4, c5] => do
    let x ← actionsOf a1 a2 a3 a4 a5
    let y ← actionsOf b1 b2 b3 b4 b5
    let z ← actionsOf c1 c2 c3 c4 c5
    if x.below y = true ∧ y.below z = true then some ⟨x, y, z⟩ else none
  | _ => none

/-- EVENT_ACK, EVENT_MASK: two words in the layout of the event flags (R172, R173). -/
def twoWords : List Word → Option (Word × Word)
  | [x, y] => some (x, y)
  | _ => none

/-- QUERY: an item code and a parameter within 0..top (R174). -/
def queryField (item : Nat) (top : Nat) : List Word → Option Nat
  | [code, param] => if code.toNat = item then upTo top param else none
  | _ => none

end Sys2Proof.Machine
end

