-- ==== Sys2Proof/Machine/Lane.lean ====
section
/-! DEFINITION. The reply sender (spec 10.4, 10.5) and the message of no kind: SEND_OPPORTUNITY, EVENT_ACK,
EVENT_MASK, UNKNOWN_KIND. -/

namespace Sys2Proof.Machine

/-- SEND_OPPORTUNITY (R168): with the ready line low nothing is sent. -/
def execSendOpportunity (ready : Bool) (s : State) : Host.Outcome State Fault Refusal :=
  whenReleased s fun s =>
    if ready then s.send else { s with sender := { s.sender with laneOut := none } }

def eventAckBody (p : List Word) : State → State × MsgOutcome :=
  fieldsThen (twoWords p) fun (x, y) s =>
    ({ s with sender := Sender.afterAck { s.sender with flags := s.sender.flags &&& ~~~ flagsOf x y } }, .done)

/-- EVENT_ACK (R172). -/
def execEventAck (s : State) : Host.Outcome State Fault Refusal := runMessage s (ofKind 0x05#8) eventAckBody

def eventMaskBody (p : List Word) : State → State × MsgOutcome :=
  fieldsThen (twoWords p) fun (x, y) s =>
    ({ s with sender := Sender.afterMask { s.sender with mask := flagsOf x y } }, .done)

/-- EVENT_MASK (R173). -/
def execEventMask (s : State) : Host.Outcome State Fault Refusal := runMessage s (ofKind 0x60#8) eventMaskBody

/-- UNKNOWN_KIND (R165): refused without a check on length or payload. -/
def execUnknownKind (s : State) : Host.Outcome State Fault Refusal :=
  runMessage s (fun e => !assignedKinds.contains e.kind) (fun _ s => (s, .refused .unknown))

end Sys2Proof.Machine
end

