-- ==== Sys2Proof/Machine/LightDrive.lean ====
section
/-! DEFINITION. Light drive and heat accounting (spec 07): BRIGHTNESS, the drive target and step, the heat
split and the period averages. -/

namespace Sys2Proof.Machine

/-- The drive target as it stands (R118). -/
def State.driveTarget (s : State) : Nat :=
  if s.startup.part = .ready ∧ s.picture.mutes.any = false then min s.light.b s.light.limit else 0

/-- D at an output frame start (R119). -/
def steppedDrive (d limit target : Nat) : Nat :=
  if limit < d then limit
  else if d < target then min (d + 20) target
  else if target < d then max (d - 20) target
  else d

def State.driveStep (s : State) : State :=
  { s with light := { s.light with d := steppedDrive s.light.d s.light.limit s.driveTarget } }

/-- The heat of a frame that ends with light fraction L at drive level D (R123). -/
def heatOf (d l : Nat) : Heat := ⟨d, d * l / 1000, d - d * l / 1000⟩

def Heat.plus (x y : Heat) : Heat := ⟨x.laser + y.laser, x.lens + y.lens, x.dump + y.dump⟩

/-- The frame's light fraction is delivered (R123, R125). -/
def Light.frameEnded (x : Light) (l : Nat) : Light :=
  let q := heatOf x.d l
  { x with split := q, accN := x.accN + 1, accSum := x.accSum.plus q }

/-- The light unit closes the fan period (R125, R126). Its frame count alone says whether the period had frames, in
STARTING too, where the count may be above 0 and R126 names every period as one without frames: DESIGN CHOICE
(assumption 37). -/
def Light.closePeriod (x : Light) : Light :=
  let avg : Heat :=
    if x.accN = 0 then ⟨x.d, 0, x.d⟩
    else ⟨x.accSum.laser / x.accN, x.accSum.lens / x.accN, x.accSum.dump / x.accN⟩
  { x with avg := avg, avgFrames := x.accN != 0, accN := 0, accSum := zeroHeat }

def brightnessBody (p : List Word) : State → State × MsgOutcome :=
  fieldsThen (oneField some p) fun w s =>
    let b := min w.toNat 1000
    ({ s with light := { s.light with b := b } },
      if 1000 < w.toNat then .clamped (natWord b) else .done)

/-- BRIGHTNESS (R117). -/
def execBrightness (s : State) : Host.Outcome State Fault Refusal :=
  runMessage s (ofKind 0x42#8) brightnessBody

end Sys2Proof.Machine
end

