-- ==== Sys2Proof/Machine/Lens.lean ====
section
/-! DEFINITION. The lens controller (spec 04) and the homing sequence (spec 11.3): the axis events and the
messages MOVE, RETURN, STOP, HOLD, RESUME, LOCK, UNLOCK, LENS_CAL, PROFILE and HOME. -/

namespace Sys2Proof.Machine

/-! ### The rate law (R62) -/

/-- The ramp index of the step with k steps of the leg before it and r after it. -/
def rampIndex (p : Profile) (k r : Nat) : Nat := min k (min r p.ramp)

/-- The rate of a step of ramp index i, in steps per second; with ramp 0 the top rate. -/
def stepRate (p : Profile) (i : Nat) : Nat :=
  if p.ramp = 0 then p.top else p.start + (p.top - p.start) * i / p.ramp

/-- The steps that remain of a leg at a position. -/
def Leg.rest (l : Leg) (pos : Nat) : Nat :=
  match l.dir with
  | .raise => l.stop - pos
  | .lower => pos - l.stop

/-- The position after a step of a leg, which never passes the leg's end (R63, R71). -/
def Leg.step (l : Leg) (pos : Nat) : Nat :=
  match l.dir with
  | .raise => if pos < l.stop then pos + 1 else pos
  | .lower => if l.stop < pos then pos - 1 else pos

/-- The current leg of a record. -/
def MoveRec.leg (m : MoveRec) : Option Leg := m.legs[m.current - 1]?

/-- The record after a step of ramp index i (R62, R78: the timer counts the time of the step). -/
def MoveRec.stepped (m : MoveRec) (i : Nat) : MoveRec :=
  { m with k := m.k + 1, lastIndex := i, timer := m.timer.plus ⟨1, stepRate m.profile i⟩ }

/-! ### AXIS_STEP -/

/-- A leg is over: the next leg begins at once, or the move completes (R65, R67). -/
def State.legOver (s : State) (a : Axis) (m : MoveRec) : State :=
  if m.current < m.legs.length then s.beginLeg a m (m.current + 1) else s.completeMove a m.owner

/-- One step of a MOVING axis (R62, R63, R65). -/
def State.stepMoving (s : State) (a : Axis) (m : MoveRec) (leg : Leg) : State :=
  let u := s.axis a
  let rest := leg.rest u.pos
  if rest = 0 then s.legOver a m
  else
    let m1 := m.stepped (rampIndex m.profile m.k (rest - 1))
    let t := s.setAxis a { u with phase := .moving m1, pos := leg.step u.pos, pulses := u.pulses + 1 }
    if rest = 1 then t.legOver a m1 else t

/-- One step of a STOPPING axis (R71): ramp indices m − 1 down to 0, then it stands. -/
def State.stepStopping (s : State) (a : Axis) (m : MoveRec) (intent : StopIntent) (left : Nat) (leg : Leg) :
    State :=
  let u := s.axis a
  if left = 0 then s.stand a intent m
  else
    let m1 := m.stepped (left - 1)
    let t := s.setAxis a { u with
      phase := .stopping m1 intent (left - 1), pos := leg.step u.pos, pulses := u.pulses + 1 }
    if left = 1 then t.stand a intent m1 else t

/-- One step of a HOMING axis (R182): counted by the sequence, the position unchanged; while decelerating
it ends UNHOMED (R183). At the bound no step is issued: HOMING_BOUND_REACHED ends the leg. -/
def State.stepHoming (s : State) (a : Axis) (run : HomingRun) : State :=
  let u := s.axis a
  match run.halt with
  | some (r, left) =>
    let t := s.setAxis a { u with
      phase := .homing { run with steps := run.steps + 1, lastIndex := left - 1, halt := some (r, left - 1) }
      pulses := u.pulses + 1 }
    if left ≤ 1 then t.standUnhomed a r else t
  | none =>
    if run.steps < run.bound then
      let i := rampIndex run.profile run.steps (run.bound - 1 - run.steps)
      s.setAxis a { u with
        phase := .homing { run with steps := run.steps + 1, lastIndex := i }
        pulses := u.pulses + 1 }
    else s

/-- The axis issues its next step, where it is stepping. -/
def State.stepAxis (s : State) (a : Axis) : State :=
  match (s.axis a).phase with
  | .moving m => match m.leg with
    | some leg => s.stepMoving a m leg
    | none => s
  | .stopping m intent left => match m.leg with
    | some leg => s.stepStopping a m intent left leg
    | none => s
  | .homing run => s.stepHoming a run
  | .unhomed | .idle | .holding _ | .fault => s

/-- AXIS_STEP (R62). -/
def execAxisStep (a : Axis) (s : State) : Host.Outcome State Fault Refusal :=
  whenReleased s (·.stepAxis a)

/-! ### Limit switch, timeout, driver fault, homing bounds -/

def State.setPin (s : State) (a : Axis) (p : AxisPins) : State := { s with pins := s.pins.set a p }

/-- A homing leg begins (R182): its run, its direction, and then the driver fault check of R79 (in this order:
assumption 35). -/
def State.beginHomingLeg (s : State) (a : Axis) (p : HomingPhase) : State :=
  (s.setAxis a { s.axis a with phase := .homing (s.homingLeg a p), dirOut := p.dir }).checkDriver a

/-- A closure re-zeroes F, whoever owned the move (R98, R100). -/
def State.rezeroFocus (s : State) (a : Axis) : State :=
  match a with
  | .f => { s with focus := { s.focus with base := 0, applied := 0, record := none } }
  | .v | .h => s

/-- The switch closes on a moving or stopping axis (R77): it stops at once at position 0, IDLE and homed,
its ring kept, and reports SLIP or STOPPED by the position it held. -/
def State.closeOnMove (s : State) (a : Axis) (m : MoveRec) : State :=
  let u := s.axis a
  let slipped := u.cal.slipTolerance < u.pos
  let t := ((s.setAxis a { u with
    phase := .idle, pos := 0
    lastEnd := if slipped then .slip else .stopped .limit }).reportStopped a m.owner).rezeroFocus a
  if slipped then (t.raise (.slip a)).makePending .lensFault else t.raise (.stopped a)

/-- The low limit switch closes (R77, R182, R183). The event is a closure whatever level the input held: one that
finds it closed already acts as a fresh closure (assumption 36). -/
def State.switchCloses (s : State) (a : Axis) : State :=
  match (s.axis a).phase with
  | .moving m => s.closeOnMove a m
  | .stopping m _ _ => s.closeOnMove a m
  | .homing run => match run.halt, run.phase with
    | some (r, _), _ => s.standUnhomed a r
    | none, .seek => s.beginHomingLeg a .backoff
    | none, .backoff => s
  | .unhomed | .idle | .holding _ | .fault => s

/-- LIMIT_SWITCH_CLOSE: the input's level is the outside's and follows even while the part is held. -/
def execLimitSwitchClose (a : Axis) (s : State) : Host.Outcome State Fault Refusal :=
  whenReleased (s.setPin a { s.pins.get a with switchClosed := true }) (·.switchCloses a)

/-- Homing succeeds (R182): IDLE and homed at 0, last end HOMED, HOME_DONE. -/
def State.homed (s : State) (a : Axis) : State :=
  (s.setAxis a { s.axis a with phase := .idle, pos := 0, lastEnd := .homed }).raise (.homeDone a)

/-- The low limit switch opens (R182, R183), whatever level the input held (assumption 36). -/
def State.switchOpens (s : State) (a : Axis) : State :=
  match (s.axis a).phase with
  | .homing run => match run.halt, run.phase with
    | some (r, _), _ => s.standUnhomed a r
    | none, .backoff => s.homed a
    | none, .seek => s
  | .unhomed | .idle | .moving _ | .holding _ | .stopping _ _ _ | .fault => s

/-- LIMIT_SWITCH_OPEN. -/
def execLimitSwitchOpen (a : Axis) (s : State) : Host.Outcome State Fault Refusal :=
  whenReleased (s.setPin a { s.pins.get a with switchClosed := false }) (·.switchOpens a)

/-- A homing leg that has run to its bound ends (R183): FAULT with HOME_FAILED and LENS_FAULT pending. A leg
with steps left to its bound goes on: where the switch closed on SEEK's last step, BACKOFF has begun
(R185). -/
def State.boundReached (s : State) (a : Axis) : State :=
  match (s.axis a).phase with
  | .homing run => match run.halt with
    | some _ => s
    | none =>
      if run.steps < run.bound then s
      else
        let why : HomeFailure := match run.phase with
          | .seek => .noSwitch
          | .backoff => .stuckSwitch
        (((s.clearHomed a .fault).setLastEnd a (.homeFailed why)).raise (.homeFailed a)).makePending .lensFault
  | .unhomed | .idle | .moving _ | .holding _ | .stopping _ _ _ | .fault => s

/-- HOMING_BOUND_REACHED (R183). -/
def execHomingBoundReached (a : Axis) (s : State) : Host.Outcome State Fault Refusal :=
  whenReleased s (·.boundReached a)

/-- The leg timer, which runs in MOVING and STOPPING, reaches the move timeout (R78). -/
def State.legTimeout (s : State) (a : Axis) : State :=
  match (s.axis a).phase with
  | .moving _ => s.enterFault a .timeout
  | .stopping _ _ _ => s.enterFault a .timeout
  | .unhomed | .homing _ | .idle | .holding _ | .fault => s

/-- MOVE_TIMEOUT (R78). -/
def execMoveTimeout (a : Axis) (s : State) : Host.Outcome State Fault Refusal :=
  whenReleased s (·.legTimeout a)

/-- DRIVER_FAULT (R79): an assertion puts the axis into FAULT, whatever level the input held (assumption 36); a
withdrawal changes only the level that the next leg's beginning finds. -/
def execDriverFault (a : Axis) (asserted : Bool) (s : State) : Host.Outcome State Fault Refusal :=
  whenReleased (s.setPin a { s.pins.get a with driverFault := asserted })
    (fun t => if asserted then t.enterFault a .driver else t)

/-! ### STOP, LOCK, UNLOCK, HOLD, RESUME -/

/-- STOP on an axis (the table of R72). -/
def State.stopAxis (s : State) (a : Axis) : State :=
  match (s.axis a).phase with
  | .moving m => s.haltMove a .host m
  | .holding m => s.standIdle a .host m
  | .homing run => s.haltHoming a .host run
  | .idle | .unhomed | .fault | .stopping _ _ _ => s

def stopBody (p : List Word) : State → State × MsgOutcome :=
  readyThen (axisField p) fun a s => (s.stopAxis a, .done)

/-- STOP (R72). -/
def execStop (s : State) : Host.Outcome State Fault Refusal := runMessage s (ofKind 0x01#8) stopBody

def lockBody (p : List Word) : State → State × MsgOutcome :=
  readyThen (axisField p) fun a s => (s.setHostLock a true, .done)

/-- LOCK (R75). -/
def execLock (s : State) : Host.Outcome State Fault Refusal := runMessage s (ofKind 0x02#8) lockBody

def unlockBody (p : List Word) : State → State × MsgOutcome :=
  readyThen (axisField p) fun a s => (s.setHostLock a false, .done)

/-- UNLOCK (R75). -/
def execUnlock (s : State) : Host.Outcome State Fault Refusal := runMessage s (ofKind 0x14#8) unlockBody

def holdBody (p : List Word) : State → State × MsgOutcome :=
  readyThen (axisField p) fun a s =>
    match (s.axis a).phase with
    | .moving m => (s.decelerate a .holding m, .done)
    | .unhomed | .homing _ | .idle | .holding _ | .stopping _ _ _ | .fault => (s, .refused .badState)

/-- HOLD (R73). -/
def execHold (s : State) : Host.Outcome State Fault Refusal := runMessage s (ofKind 0x11#8) holdBody

/-- The retained record is taken up again (R74): the rest of the current leg as a new leg, or, standing at
its end, the next leg or the completion. -/
def State.resumeMove (s : State) (a : Axis) (m : MoveRec) : State :=
  match m.leg with
  | some leg => if leg.rest (s.axis a).pos = 0 then s.legOver a m else s.beginLeg a m m.current
  | none => s.legOver a m

def resumeBody (p : List Word) : State → State × MsgOutcome :=
  readyThen (axisField p) fun a s =>
    if (s.axis a).locked then (s, .refused .locked)
    else match (s.axis a).phase with
      | .holding m => (s.resumeMove a m, .done)
      | .unhomed | .homing _ | .idle | .moving _ | .stopping _ _ _ | .fault => (s, .refused .badState)

/-- RESUME (R74). -/
def execResume (s : State) : Host.Outcome State Fault Refusal := runMessage s (ofKind 0x12#8) resumeBody

/-! ### MOVE and RETURN -/

/-- An accepted COMMANDED move is handed on before its first step (R68): on V and H the placement ends
(R93), on F the focus base is set (R98). -/
def State.handOver (s : State) (a : Axis) (target : Nat) : State :=
  match a with
  | .v | .h => { s with place := s.place.cancelled }
  | .f => { s with focus := { s.focus with base := (target : Int) - s.focus.applied } }

/-- The position set out from is pushed onto the ring, unless the target equals it (R68, R69). -/
def AxisUnit.push (u : AxisUnit) (target : Nat) : AxisUnit :=
  if target = u.pos then u else { u with ring := (u.pos :: u.ring).take 8 }

/-- The checks MOVE and RETURN share, from NOT_HOMED to BUSY (R66, R70). -/
def AxisUnit.refusesMove (u : AxisUnit) : Option Reason :=
  if u.homed = false then some .notHomed
  else if u.locked then some .locked
  else if u.phase.inMove then some .busy
  else none

def moveBody (p : List Word) : State → State × MsgOutcome :=
  readyThen (moveFields p) fun f s =>
    let u := s.axis f.axis
    match u.refusesMove with
    | some r => (s, .refused r)
    | none =>
      let target := min f.target u.cal.max
      let t := ((s.handOver f.axis target).setAxis f.axis (u.push target)).beginMove f.axis target .commanded
        f.profile
      (t, if u.cal.max < f.target then .clamped (natWord target) else .done)

/-- MOVE (R66). -/
def execMove (s : State) : Host.Outcome State Fault Refusal := runMessage s (ofKind 0x10#8) moveBody

def returnBody (p : List Word) : State → State × MsgOutcome :=
  readyThen (axisField p) fun a s =>
    let u := s.axis a
    match u.refusesMove, u.ring with
    | some r, _ => (s, .refused r)
    | none, [] => (s, .refused .nothing)
    | none, target :: ring =>
      (((s.handOver a target).setAxis a { u with ring := ring }).beginMove a target .commanded 1, .done)

/-- RETURN (R70). -/
def execReturnMove (s : State) : Host.Outcome State Fault Refusal := runMessage s (ofKind 0x13#8) returnBody

/-! ### LENS_CAL and PROFILE -/

def lensCalBody (p : List Word) : State → State × MsgOutcome :=
  readyThen (lensCalFields p) fun (a, cal) s =>
    let u := s.axis a
    if u.phase.inMove || u.phase.isHoming then (s, .refused .busy)
    else if u.homed ∧ cal.max < u.pos then (s, .refused .badState)
    else (s.setAxis a { u with cal := cal, ring := u.ring.filter (· ≤ cal.max) }, .done)

/-- LENS_CAL (R60). -/
def execLensCal (s : State) : Host.Outcome State Fault Refusal := runMessage s (ofKind 0x30#8) lensCalBody

def profileBody (p : List Word) : State → State × MsgOutcome :=
  readyThen (profileFields p) fun (n, x) s =>
    ({ s with lens := { s.lens with profiles := s.lens.profiles.set n x } }, .done)

/-- PROFILE (R61). -/
def execProfile (s : State) : Host.Outcome State Fault Refusal := runMessage s (ofKind 0x31#8) profileBody

/-! ### HOME -/

/-- A named axis enters HOMING (R181): homed flag clear, last end NONE; the limit switch is sampled, SEEK
where it is open and BACKOFF where it is closed (R182). The direction output is driven here, before the driver
fault check of `State.firstHomingLeg` (assumption 35). -/
def State.enterHoming (s : State) (a : Axis) : State :=
  let p : HomingPhase := if (s.pins.get a).switchClosed then .backoff else .seek
  let t := s.clearHomed a (.homing (s.homingLeg a p))
  t.setAxis a { t.axis a with lastEnd := .none, dirOut := p.dir }

/-- The first leg of a sequence begins with the driver fault check (R79, R182), unless a lock delivered in
between has already ended the sequence (assumption 18). -/
def State.firstHomingLeg (s : State) (a : Axis) : State :=
  if (s.axis a).phase.isHoming then s.checkDriver a else s

/-- The homing sequences of the named axes begin (R181). -/
def State.homeAxes (s : State) (as : List Axis) : State :=
  as.foldl State.firstHomingLeg (as.foldl State.enterHoming s)

def homeBody (p : List Word) : State → State × MsgOutcome :=
  readyThen (homeFields p) fun as s =>
    if as.any (fun a => (s.axis a).locked) then (s, .refused .locked)
    else if as.any (fun a => (s.axis a).phase.inMove || (s.axis a).phase.isHoming) then (s, .refused .busy)
    else (s.homeAxes as, .done)

/-- HOME (R181). -/
def execHome (s : State) : Host.Outcome State Fault Refusal := runMessage s (ofKind 0x15#8) homeBody

end Sys2Proof.Machine
end

