-- ==== Sys2Proof/Machine/Placement.lean ====
section
/-! DEFINITION. Placement and focus upkeep (spec 05): PLACE, PLACE_CANCEL, FOCUS_TABLE, FOCUS_UPKEEP, the
digital offset of each output frame, and upkeep at a LENS window end. -/

namespace Sys2Proof.Machine

/-! ### PLACE -/

/-- The lens target of an axis for an offset of n pixels (R86): exact quotient, rounded once, clamped to
the axis's travel. -/
def Cal.lensTarget (c : Cal) (n : Int) : Nat :=
  (clampInt 0 c.max ((c.reference : Int) + roundDiv (n * 1024) c.pps)).toNat

/-- The states PLACE accepts (R85). -/
def Phase.placeable : Phase → Bool
  | .idle => true
  | .moving m => m.owner == .placement
  | .holding m => m.owner == .placement
  | .stopping m .holding _ => m.owner == .placement
  | .stopping m (.retarget _) _ => m.owner == .placement
  | .stopping _ (.idle _) _ => false
  | .unhomed | .homing _ | .fault => false

/-- A placement start or retarget, as the lens controller acts on it (R76): only where the axis is homed
with both locks clear at that moment. -/
def State.requestPlacement (s : State) (a : Axis) (target : Nat) : State :=
  let u := s.axis a
  if u.locked then s
  else match u.phase with
    | .idle => s.beginMove a target .placement 1
    | .moving m => if m.owner = .placement then s.decelerate a (.retarget target) m else s
    | .holding m => if m.owner = .placement then s.beginMove a target .placement 1 else s
    | .stopping m .holding left =>
      if m.owner = .placement then s.setPhase a (.stopping m (.retarget target) left) else s
    | .stopping m (.retarget _) left =>
      if m.owner = .placement then s.setPhase a (.stopping m (.retarget target) left) else s
    | .stopping _ (.idle _) _ => s
    | .unhomed | .homing _ | .fault => s

/-- An accepted PLACE (R86): the targets are stored, both outstanding flags set, and one request made per
axis, V first. -/
def State.startPlacement (s : State) (ox oy : Int) : State :=
  let tv := (s.axis .v).cal.lensTarget oy
  let th := (s.axis .h).cal.lensTarget ox
  let p : Placement := { s.place with
    state := .tracking, ox := ox, oy := oy, posVt := tv, posHt := th, outV := true, outH := true,
    shortV := false, shortH := false, settleDue := false }
  (State.requestPlacement { s with place := p } .v tv).requestPlacement .h th

def placeBody (p : List Word) : State → State × MsgOutcome :=
  readyThen (placeFields p) fun (ox, oy) s =>
    if (s.axis .v).homed = false ∨ (s.axis .h).homed = false then (s, .refused .notHomed)
    else if (s.axis .v).locked ∨ (s.axis .h).locked then (s, .refused .locked)
    else if (s.axis .v).phase.placeable = false ∨ (s.axis .h).phase.placeable = false then
      (s, .refused .busy)
    else (s.startPlacement ox oy, .done)

/-- PLACE (R85). -/
def execPlace (s : State) : Host.Outcome State Fault Refusal := runMessage s (ofKind 0x16#8) placeBody

def placeCancelBody (p : List Word) : State → State × MsgOutcome :=
  readyThen (noField p) fun _ s => ({ s with place := s.place.cancelled }, .done)

/-- PLACE_CANCEL (R92). -/
def execPlaceCancel (s : State) : Host.Outcome State Fault Refusal :=
  runMessage s (ofKind 0x17#8) placeCancelBody

/-! ### The digital offset (R88 to R90) -/

/-- The raw offset of an axis: the target less the optical offset, rounded (R89). -/
def rawOffset (target : Int) (u : AxisUnit) : Int :=
  roundDiv (target * 1024 - ((u.pos : Int) - u.cal.reference) * u.cal.pps) 1024

def Placement.active (p : Placement) : Bool := p.state != .none

/-- The offset of the output frame that begins, within the margins handed for it (R89, R90). While the
placement is NONE it is 0, and the raw values are recorded as 0 (assumption 15). -/
def State.frameOffset (s : State) (m : Margins) : FrameOffset :=
  if s.place.active then
    let dxRaw := rawOffset s.place.ox (s.axis .h)
    let dyRaw := rawOffset s.place.oy (s.axis .v)
    let dx := clampInt (-(m.left : Int)) m.right dxRaw
    let dy := clampInt (-(m.up : Int)) m.down dyRaw
    ⟨dxRaw, dyRaw, dx, dy, dx != dxRaw, dy != dyRaw, m⟩
  else ⟨0, 0, 0, 0, false, false, m⟩

/-- At an input frame start: the offset, the OFF_TARGET count (R90), and with settle due the settle
decision (R88). -/
def State.placeFrameStart (s : State) (m : Margins) : State :=
  let o := s.frameOffset m
  let off := o.clampedX || o.clampedY
  let p : Placement := { s.place with
    frame := o
    offTarget := if s.place.active && off then bump s.place.offTarget else s.place.offTarget }
  if p.settleDue then
    let good := !p.shortV && !p.shortH && !off
    State.raise { s with place := { p with state := if good then .settled else .partly, settleDue := false } }
      .placeDone
  else { s with place := p }

/-! ### Focus upkeep -/

def focusTableBody (p : List Word) : State → State × MsgOutcome :=
  readyThen (focusTableFields p) fun table s => ({ s with focus := { s.focus with table := table } }, .done)

/-- FOCUS_TABLE (R96). -/
def execFocusTable (s : State) : Host.Outcome State Fault Refusal :=
  runMessage s (ofKind 0x32#8) focusTableBody

def focusUpkeepBody (p : List Word) : State → State × MsgOutcome :=
  readyThen (oneField yesNo p) fun on s => ({ s with focus := { s.focus with upkeep := on } }, .done)

/-- FOCUS_UPKEEP (R97). -/
def execFocusUpkeep (s : State) : Host.Outcome State Fault Refusal :=
  runMessage s (ofKind 0x33#8) focusUpkeepBody

/-- Some axis holds a move record of owner PLACEMENT (R99). -/
def State.placementMoves (s : State) : Bool :=
  allAxes.any fun a => match (s.axis a).phase.record with
    | some m => m.owner == .placement
    | none => false

/-- The conditions of R99 for an upkeep move toward the desired compensation. -/
def State.upkeepDue (s : State) : Bool :=
  s.focus.upkeep && (s.axis .f).phase == .idle && !(s.axis .f).locked && !s.placementMoves
    && decide (2 ≤ (s.focus.desired - s.focus.applied).natAbs)

/-- The upkeep move begins, with the upkeep record for the desired compensation (R99). -/
def State.startUpkeep (s : State) : State :=
  let target := (clampInt 0 (s.axis .f).cal.max (s.focus.base + s.focus.desired)).toNat
  State.beginMove { s with focus := { s.focus with record := some s.focus.desired } } .f target .upkeep 0

/-- What a LENS window end hands to focus upkeep (R99, R109): the reading or its absence, and the fault
flag. -/
def State.upkeepWindow (s : State) (reading : Option Int) (fault : Bool) : State :=
  match reading, fault with
  | some r, false =>
    let t := { s with focus := { s.focus with desired := interpolate s.focus.table r } }
    if t.upkeepDue then t.startUpkeep else t
  | some _, true | none, _ => s

end Sys2Proof.Machine
end

