-- ==== Sys2Proof/Machine/Sensing.lean ====
section
/-! DEFINITION. Temperature sensing (spec 06): WINDOW_END, SENSOR_SET and THRESHOLDS. -/

namespace Sys2Proof.Machine

def State.sensor (s : State) (x : Sensor) : SensorUnit := s.sensors.units.get x

def State.setSensor (s : State) (x : Sensor) (u : SensorUnit) : State :=
  { s with sensors := { s.sensors with units := s.sensors.units.set x u } }

/-- The threshold T: the criteria-table entry that the index selects (6.1). -/
def Sensors.threshold (x : Sensors) (u : SensorUnit) : Int := x.criteria.getD u.index 0

/-- The release temperature: trip less 40 (6.1). -/
def SensorUnit.release (u : SensorUnit) : Int := (u.trip : Int) - 40

/-- The trip condition (R107). -/
def SensorUnit.trips (u : SensorUnit) : Bool :=
  match u.reading with
  | some r => !u.fault && decide ((u.trip : Int) ≤ r)
  | none => false

/-- The release condition (R108): a held reading counts, an absent one does not. -/
def SensorUnit.meetsRelease (u : SensorUnit) : Bool :=
  match u.reading with
  | some r => decide (u.release ≤ r)
  | none => false

/-- The fan reading (R109). -/
def SensorUnit.fanReading (u : SensorUnit) : Int :=
  match u.reading, u.fault with
  | some r, false => r
  | some _, true | none, _ => u.trip

/-- The filtered reading after a good sample (R105). -/
def filtered (reading : Option Int) (x : Int) : Int :=
  match reading with
  | none => x
  | some r => r + (x - r + 4) / 8

/-- The comparator after a good window end (R106). -/
def comparatorAfter (high : Bool) (r threshold : Int) : Bool :=
  if high then decide (threshold - 8 ≤ r) else decide (threshold ≤ r)

/-- A sample within −160..600 is good (R104). -/
def goodSample (x : Int) : Bool := decide (-160 ≤ x) && decide (x ≤ 600)

/-- The TEMP source of a sensor (R106). -/
def tempSource : Sensor → Source
  | .laser => .tempLaser
  | .panel => .tempPanel
  | .dump => .tempDump
  | .lens => .tempLens

/-- The sensor after the window end's sample is latched and judged (R104 to R106). -/
def SensorUnit.sampled (u : SensorUnit) (threshold x : Int) : SensorUnit :=
  if goodSample x then
    let r := filtered u.reading x
    { u with raw := some x, reading := some r, high := comparatorAfter u.high r threshold, fault := false }
  else { u with raw := some x, fault := true }

/-- The sources a window end makes pending, in the order of R104: SENSOR_FAULT at a faulted one; at a good
one the TEMP source at the turn to HIGH (R106), then TRIP (R107). -/
def windowSources (x : Sensor) (before after : SensorUnit) : List Source :=
  if after.fault then [.sensorFault]
  else (if !before.high && after.high then [tempSource x] else []) ++ (if after.trips then [.trip] else [])

/-- The next window starts and first applies the pending settings (R103). -/
def SensorUnit.nextWindow (u : SensorUnit) : SensorUnit :=
  match u.pend with
  | some p => { u with window := p.window, index := p.index, trip := p.trip, pend := none }
  | none => u

/-- A window end (R104): latch and judge, make the sources pending, hand the LENS reading on (R109), start
the next window (R103). -/
def State.windowEnd (s : State) (x : Sensor) (sample : Int) : State :=
  let before := s.sensor x
  let after := before.sampled (s.sensors.threshold before) sample
  let t := (windowSources x before after).foldl State.makePending (s.setSensor x after)
  let t := match x with
    | .lens => t.upkeepWindow after.reading after.fault
    | .laser | .panel | .dump => t
  t.setSensor x (t.sensor x).nextWindow

/-- WINDOW_END (R104). -/
def execWindowEnd (x : Sensor) (raw : Word) (s : State) : Host.Outcome State Fault Refusal :=
  whenReleased s (·.windowEnd x raw.toInt)

/-- The window length as taken (R111). -/
def windowTaken (n : Nat) : Nat := if n < 10 then 10 else if 250 < n then 250 else n

def sensorSetBody (p : List Word) : State → State × MsgOutcome :=
  fieldsThen (sensorSetFields p) fun (x, window, index, trip) s =>
    let w := windowTaken window
    (s.setSensor x { s.sensor x with pend := some ⟨w, index, trip⟩ },
      if w = window then .done else .clamped (natWord w))

/-- SENSOR_SET (R111). -/
def execSensorSet (s : State) : Host.Outcome State Fault Refusal := runMessage s (ofKind 0x40#8) sensorSetBody

def thresholdsBody (p : List Word) : State → State × MsgOutcome :=
  fieldsThen (thresholdsFields p) fun table s =>
    ({ s with sensors := { s.sensors with criteria := table } }, .done)

/-- THRESHOLDS (R110). -/
def execThresholds (s : State) : Host.Outcome State Fault Refusal :=
  runMessage s (ofKind 0x41#8) thresholdsBody

end Sys2Proof.Machine
end

