-- ==== Sys2Proof/Machine/FanControl.lean ====
section
/-! DEFINITION. Fans (spec 08): FAN_UPDATE, TACH_PULSE, FAN_CURVE, FAN_LIMITS and QUIET. -/

namespace Sys2Proof.Machine

def State.fan (s : State) (x : Fan) : FanUnit := s.fans.units.get x

def State.setFan (s : State) (x : Fan) (u : FanUnit) : State :=
  { s with fans := { s.fans with units := s.fans.units.set x u } }

/-- TACH_PULSE (R138): counted in every fan state. -/
def execTachPulse (x : Fan) (s : State) : Host.Outcome State Fault Refusal :=
  whenReleased s fun s => s.setFan x { s.fan x with count := (s.fan x).count + 1 }

/-! ### The terms of the demand -/

/-- The curve set in use (R132). -/
def FanRecord.curve (r : FanRecord) : Orientation → List Breakpoint
  | .floor => r.floorSet
  | .ceiling => r.ceilingSet

/-- The curve value (R133). -/
def FanRecord.curveValue (r : FanRecord) (o : Orientation) (reading : Int) : Nat :=
  (interpolate (r.curve o) reading).toNat

/-- The zone's average (R134). -/
def Heat.zone (q : Heat) : Zone → Nat
  | .laser => q.laser
  | .dump => q.dump
  | .lens => q.lens
  | .none => 0

/-- The feed-forward term (R134). -/
def FanRecord.feedForward (r : FanRecord) (q : Heat) : Nat := q.zone r.zone * r.gain / 1000

/-- The demand (the five steps of R135). -/
def demandOf (curve ff floor cap : Nat) (capped : Bool) : Nat :=
  let third := max (max curve ff) floor
  let fourth := if capped then max floor (min third cap) else third
  if 1 ≤ fourth ∧ fourth ≤ 199 then 200 else fourth

/-- The duty after slew from the duty p before the update (R136), never below the delivered floor. -/
def slewedDuty (p demand floor : Nat) : Nat :=
  max (if p < demand then min (p + 50) demand else if demand < p then max (p - 50) demand else p) floor

/-! ### The steps of the fan update (R132) -/

/-- Step 2: the period's count enters the history, and the speed is measured (R138, R139). -/
def FanUnit.measured (u : FanUnit) : FanUnit :=
  let history := (u.count :: u.history).take 5
  { u with history := history, count := 0, speed := history.sum * 60 }

/-- Step 3 for one fan: the stall judgement (the table of R140). -/
def FanUnit.judged (u : FanUnit) : FanUnit :=
  match u.state with
  | .running =>
    if u.speed < u.record.stallSpeed then
      if 3 ≤ u.stallRun + 1 then { u with state := .stalled, stallRun := u.stallRun + 1, recovery := 0 }
      else { u with stallRun := u.stallRun + 1 }
    else { u with stallRun := 0 }
  | .stalled =>
    if u.speed < u.record.stallSpeed then { u with recovery := 0 }
    else if 3 ≤ u.recovery + 1 then
      { u with state := .running, recovery := u.recovery + 1, stallRun := 0 }
    else { u with recovery := u.recovery + 1 }
  | .stopped | .spinup => u

def stallSource : Fan → Source
  | .intake => .stallIntake
  | .light => .stallLight
  | .exhaust => .stallExhaust

/-- Step 3 for one fan in the state: its STALL source is made pending at the turn to STALLED (R140), and at
the first fan update after SOFT_RESET where it is STALLED after the judgement (R131). -/
def State.judgeFan (s : State) (x : Fan) : State :=
  let u := (s.fan x).judged
  let t := s.setFan x u
  if u.state = .stalled ∧ ((s.fan x).state ≠ .stalled ∨ s.fans.reReport = true) then
    t.makePending (stallSource x)
  else t

/-- Step 5: the state and duty transitions (the table of R137); `p` is the fan's duty before the update
(R136), which a floor delivered at step 3 may since have raised. -/
def FanUnit.moved (u : FanUnit) (p demand floor : Nat) : FanUnit :=
  match u.state with
  | .stopped =>
    if demand = 0 then { u with duty := 0 } else { u with state := .spinup, duty := 1000, spin := 1 }
  | .spinup =>
    if demand = 0 then { u with state := .stopped, duty := 0, spin := 0 }
    else if u.spin < 5 then { u with duty := 1000, spin := u.spin + 1 }
    else { u with state := .running, duty := demand, spin := 0, stallRun := 0 }
  | .running | .stalled =>
    if demand = 0 then { u with state := .stopped, duty := 0, stallRun := 0, recovery := 0 }
    else { u with duty := slewedDuty p demand floor }

/-- Steps 4 and 5 for one fan: the demand is composed from the fan reading, the orientation and the
averages, and kept with its terms (R132, R135); then the state and duty move. `before` holds the duties as
the update found them. -/
def State.updateFan (before : PerFan Nat) (s : State) (x : Fan) : State :=
  let u := s.fan x
  let o := s.picture.orientation
  let reading := (s.sensor u.record.sensor).fanReading
  let curve := u.record.curveValue o reading
  let ff := u.record.feedForward s.light.avg
  let demand := demandOf curve ff s.fans.floor u.record.quietCap (s.fans.quiet && !s.fans.capLifted)
  let v := { u with lastCurve := curve, lastFF := ff, lastDemand := demand, readingUsed := reading }
  s.setFan x (v.moved (before.get x) demand s.fans.floor)

/-- A fan update (R132): the five steps in order, fans in order. -/
def State.fanUpdate (s : State) : State :=
  let s1 := { s with light := s.light.closePeriod }
  let s2 := { s1 with fans := { s1.fans with units := s1.fans.units.map FanUnit.measured } }
  let s3 := allFans.foldl State.judgeFan s2
  let s4 := { s3 with fans := { s3.fans with reReport := false, curveSet := s3.picture.orientation } }
  allFans.foldl (State.updateFan (s.fans.units.map (·.duty))) s4

/-- FAN_UPDATE (R132). -/
def execFanUpdate (s : State) : Host.Outcome State Fault Refusal := whenReleased s (·.fanUpdate)

/-! ### Messages -/

def fanCurveBody (p : List Word) : State → State × MsgOutcome :=
  fieldsThen (fanCurveFields p) fun (x, o, table) s =>
    let u := s.fan x
    let r := match o with
      | .floor => { u.record with floorSet := table }
      | .ceiling => { u.record with ceilingSet := table }
    (s.setFan x { u with record := r }, .done)

/-- FAN_CURVE (R143). -/
def execFanCurve (s : State) : Host.Outcome State Fault Refusal := runMessage s (ofKind 0x43#8) fanCurveBody

def fanLimitsBody (p : List Word) : State → State × MsgOutcome :=
  fieldsThen (fanLimitsFields p) fun f s =>
    let u := s.fan f.fan
    let cap := max f.quietCap 200
    let r := { u.record with
      sensor := f.sensor, zone := f.zone, gain := f.gain, quietCap := cap, stallSpeed := f.stallSpeed }
    (s.setFan f.fan { u with record := r }, if f.quietCap < 200 then .clamped (natWord cap) else .done)

/-- FAN_LIMITS (R144). -/
def execFanLimits (s : State) : Host.Outcome State Fault Refusal := runMessage s (ofKind 0x44#8) fanLimitsBody

def quietBody (p : List Word) : State → State × MsgOutcome :=
  fieldsThen (oneField yesNo p) fun on s => ({ s with fans := { s.fans with quiet := on } }, .done)

/-- QUIET (R145). -/
def execQuiet (s : State) : Host.Outcome State Fault Refusal := runMessage s (ofKind 0x45#8) quietBody

end Sys2Proof.Machine
end

