-- ==== Sys2Proof/Machine/Protect.lean ====
section
/-! DEFINITION. Protection levels (spec 09): LEVELS, ACTIONS, CLEAR and LOWER. -/

namespace Sys2Proof.Machine

/-- The persisting condition of a source, on the state its owner holds now (R155). -/
def State.persists (s : State) (x : Source) : Bool :=
  match x with
  | .trip => allSensors.any fun i => (s.sensor i).trips
  | .tempLaser => (s.sensor .laser).high
  | .tempPanel => (s.sensor .panel).high
  | .tempDump => (s.sensor .dump).high
  | .tempLens => (s.sensor .lens).high
  | .sensorFault => allSensors.any fun i => (s.sensor i).fault
  | .stallIntake => (s.fan .intake).state == .stalled
  | .stallLight => (s.fan .light).state == .stalled
  | .stallExhaust => (s.fan .exhaust).state == .stalled
  | .linkLoss => !s.link.present
  | .lensFault | .memoryFault => false

/-- Some sensor meets the release condition (R108, R156). -/
def State.gateClosed (s : State) : Bool := allSensors.any fun i => (s.sensor i).meetsRelease

def levelsBody (p : List Word) : State → State × MsgOutcome :=
  fieldsThen (levelsFields p) fun levels s =>
    (State.accept { s with prot := { s.prot with levels := { levels with trip := s.prot.levels.trip } } }, .done)

/-- LEVELS (R149). -/
def execLevels (s : State) : Host.Outcome State Fault Refusal := runMessage s (ofKind 0x50#8) levelsBody

def actionsBody (p : List Word) : State → State × MsgOutcome :=
  fieldsThen (actionsFields p) fun table s =>
    let t := { s with prot := { s.prot with table := table } }
    (if 1 ≤ t.prot.c ∧ t.prot.c ≤ 3 then t.deliver else t, .done)

/-- ACTIONS (R152). -/
def execActions (s : State) : Host.Outcome State Fault Refusal := runMessage s (ofKind 0x51#8) actionsBody

/-- CLEAR of a source (R154): re-armed while its persisting condition holds. -/
def State.clearSource (s : State) (x : Source) : State :=
  if s.persists x then s else { s with prot := { s.prot with pending := s.prot.pending.set x false } }

def clearBody (p : List Word) : State → State × MsgOutcome :=
  fieldsThen (oneField sourceOf p) fun x s => (s.clearSource x, .done)

/-- CLEAR (R154). -/
def execClear (s : State) : Host.Outcome State Fault Refusal := runMessage s (ofKind 0x03#8) clearBody

/-- A LOWER that is taken (the table of R157): C becomes the highest of the target and the levels of the
pending sources; where that differs from the old C, LEVEL_CHANGED is set and one delivery is made. -/
def State.lowerTo (s : State) (target : Nat) : State :=
  let c := max target s.prot.topLevel
  if c = s.prot.c then s
  else
    let cause := if target < c then s.prot.causeAt c else if 0 < target then .host else .none
    (State.raise { s with prot := { s.prot with c := c, cause := cause } } .levelChanged).deliver

/-- The checks of R156. -/
def lowerBody (p : List Word) : State → State × MsgOutcome :=
  fieldsThen (oneField some p) fun w s =>
    if s.prot.c ≤ w.toNat then (s, .refused .badField)
    else if s.prot.c = 4 ∧ s.gateClosed = true then (s, .refused .badState)
    else (s.lowerTo w.toNat, .done)

/-- LOWER (R156). -/
def execLower (s : State) : Host.Outcome State Fault Refusal := runMessage s (ofKind 0x04#8) lowerBody

end Sys2Proof.Machine
end

