-- ==== Sys2Proof/Machine/Store.lean ====
section
/-! DEFINITION. The part's addressed memories: the frame memory's rows (spec 01, 1.1) and the banks' line
records (spec 02), each a list in one canonical form: numbers strictly rising, and no entry equal to what
an unlisted number reads as. -/

namespace Sys2Proof.Machine

variable {α : Type}

/-- What is listed at a number. -/
def storeFind : Store α → Nat → Option α
  | [], _ => none
  | (j, x) :: rest, k => if j = k then some x else storeFind rest k

/-- Write a number, in its place. -/
def storePut : Store α → Nat → α → Store α
  | [], k, x => [(k, x)]
  | (j, y) :: rest, k, x =>
    if k < j then (k, x) :: (j, y) :: rest
    else if k = j then (k, x) :: rest
    else (j, y) :: storePut rest k x

/-- Unlist a number. -/
def storeErase : Store α → Nat → Store α
  | [], _ => []
  | (j, y) :: rest, k => if j = k then rest else (j, y) :: storeErase rest k

/-- Strictly rising numbers. -/
abbrev storeRising (s : Store α) : Prop := s.Pairwise (fun p q => p.1 < q.1)

/-! ### Line records (2.2) -/

/-- The DARK record of a cleared line; its ignored fields are 0 (assumption 10). -/
def darkRecord : LineRecord := ⟨0, 0, 0, 0, 0, 0, 0⟩

/-- Record j of a bank. -/
def bankRecord (b : Bank) (j : Nat) : LineRecord := (storeFind b.records j).getD darkRecord

/-- Write record j (R27: "each in place of the record that was there"). -/
def bankWrite (b : Bank) (j : Nat) (r : LineRecord) : Bank :=
  { b with records := if r = darkRecord then storeErase b.records j else storePut b.records j r }

/-- Write consecutive records from line j on (R27). -/
def bankWriteRun (b : Bank) (j : Nat) : List LineRecord → Bank
  | [] => b
  | r :: rs => bankWriteRun (bankWrite b j r) (j + 1) rs

/-- The canonical form of a bank's records: rising lines below 2160, none equal to the DARK record that an
unlisted line reads as. -/
abbrev bankWf (b : Bank) : Prop :=
  storeRising b.records ∧ (∀ p ∈ b.records, p.1 < Config.panelRows) ∧ ∀ p ∈ b.records, p.2 ≠ darkRecord

/-! ### Frame memory (1.1) -/

/-- The rows of a slot. -/
def FrameMemory.rows (m : FrameMemory) : SlotId → Store (List Sample)
  | .s0 => m.s0
  | .s1 => m.s1

def FrameMemory.withRows (m : FrameMemory) (slot : SlotId) (rows : Store (List Sample)) : FrameMemory :=
  match slot with
  | .s0 => { m with s0 := rows }
  | .s1 => { m with s1 := rows }

/-- Samples written into columns 0 onward of a row; the columns beyond keep what they held (R1). -/
def FrameMemory.writeRow (m : FrameMemory) (slot : SlotId) (row : Nat) (xs : List Sample) : FrameMemory :=
  let whole := xs ++ ((storeFind (m.rows slot) row).getD []).drop xs.length
  if whole = [] then m else m.withRows slot (storePut (m.rows slot) row whole)

/-- The free sample of a place that nothing has written since the contents became undefined (R3). -/
def undefinedSample (epoch : Nat) (slot : SlotId) (row col : Nat) : Sample :=
  let k := match slot with | .s0 => 0 | .s1 => 1
  ⟨Config.undefinedComponent epoch k row col 0, Config.undefinedComponent epoch k row col 1,
    Config.undefinedComponent epoch k row col 2⟩

/-- The sample at a row and column of a slot. -/
def FrameMemory.sample (m : FrameMemory) (slot : SlotId) (row col : Nat) : Sample :=
  match ((storeFind (m.rows slot) row).getD [])[col]? with
  | some x => x
  | none => undefinedSample m.epoch slot row col

/-- The contents become undefined (R3, R178, R184). -/
def FrameMemory.forget (m : FrameMemory) : FrameMemory := ⟨[], [], m.epoch + 1⟩

/-- The canonical form of the frame memory: in each slot rising rows below 2160, none empty and none longer
than the 3840 columns. -/
abbrev frameWf (m : FrameMemory) : Prop :=
  (storeRising m.s0 ∧ ∀ p ∈ m.s0, p.1 < Config.panelRows ∧ p.2 ≠ [] ∧ p.2.length ≤ Config.panelColumns) ∧
    (storeRising m.s1 ∧ ∀ p ∈ m.s1, p.1 < Config.panelRows ∧ p.2 ≠ [] ∧ p.2.length ≤ Config.panelColumns)

end Sys2Proof.Machine
end

