-- ==== Sys2Proof/Machine/Pixels.lean ====
section
/-! DEFINITION. The coordinate chain, the sampling arithmetic, the internal grid and the light of a pixel
(spec 01, 1.3 and 1.5). -/

namespace Sys2Proof.Machine

/-- A black pixel: all three components 0 (1.3). -/
def blackSample : Sample := ⟨0#10, 0#10, 0#10⟩

/-- The screen position of a panel position (R6). -/
def screenOf (o : Orientation) (x y : Nat) : Int × Int :=
  match o with
  | .floor => (x, y)
  | .ceiling => (3839 - (x : Int), 2159 - (y : Int))

/-- A sample of the internal grid for a bank of this size (R11). -/
def gridSample (z : Size) (row col : Nat) : Sample :=
  if col % 240 = 0 ∨ row % 240 = 0 ∨ col = z.w - 1 ∨ row = z.h - 1 then ⟨1023#10, 1023#10, 1023#10⟩
  else ⟨64#10, 64#10, 64#10⟩

/-- One weighted stage of the sampling (R10). -/
def blend (p q f : Nat) : Nat := (p * (16 - f) + q * f + 8) / 16

/-- One component at a source position (R10), from the component at (row, column). -/
def sampleComponent (p : Nat → Nat → Nat) (z : Size) (u v : Nat) : Nat :=
  let iu := u / 65536
  let fu := (u - iu * 65536) / 4096
  let iv := v / 65536
  let fv := (v - iv * 65536) / 4096
  let iu1 := min (iu + 1) (z.w - 1)
  let iv1 := min (iv + 1) (z.h - 1)
  blend (blend (p iv iu) (p iv iu1) fu) (blend (p iv1 iu) (p iv1 iu1) fu) fv

/-- The pixel at a source position (R10), from the samples of a source. -/
def sampleAt (p : Nat → Nat → Sample) (z : Size) (u v : Nat) : Sample :=
  ⟨BitVec.ofNat 10 (sampleComponent (fun r c => (p r c).r.toNat) z u v),
    BitVec.ofNat 10 (sampleComponent (fun r c => (p r c).g.toNat) z u v),
    BitVec.ofNat 10 (sampleComponent (fun r c => (p r c).b.toNat) z u v)⟩

/-- The source position of column xm of a LIT record, where the record and the source hold it (R9). -/
def sourcePosition (r : LineRecord) (z : Size) (xm : Nat) : Option (Nat × Nat) :=
  if xm < r.xLeft ∨ r.xRight ≤ xm then none
  else
    let n : Int := (xm : Int) - r.xLeft
    let u := r.u0 + n * r.du
    let v := r.v0 + n * r.dv
    if u < 0 ∨ v < 0 ∨ ((z.w : Int) - 1) * 65536 < u ∨ ((z.h : Int) - 1) * 65536 < v then none
    else some (u.toNat, v.toNat)

/-- The pixel of a mapped line (R9): black on a DARK record, outside the span and outside the source. -/
def mappedPixel (b : Bank) (p : Nat → Nat → Sample) (xm ym : Nat) : Sample :=
  let r := bankRecord b ym
  if r.kind = 1 then
    match sourcePosition r b.size xm with
    | some (u, v) => sampleAt p b.size u v
    | none => blackSample
  else blackSample

/-- The samples the frame reads (R3): those of its read slot; without one every sample is black. -/
def OutFrame.source (f : OutFrame) (m : FrameMemory) (row col : Nat) : Sample :=
  match f.read with
  | some (slot, _) => m.sample slot row col
  | none => blackSample

/-- The pixel of a frame at panel position (x, y), without the mute causes (R6 to R11). -/
def OutFrame.openPixel (f : OutFrame) (b : Bank) (m : FrameMemory) (x y : Nat) : Sample :=
  let (xf, yf) := screenOf f.orientation x y
  let xm := xf - f.dx
  let ym := yf - f.dy
  if xm < 0 ∨ 3839 < xm ∨ ym < 0 ∨ 2159 < ym then blackSample
  else match f.mode with
    | .mute => blackSample
    | .identity => match f.read with
      | some (slot, z) =>
        if xm.toNat < z.w ∧ ym.toNat < z.h then m.sample slot ym.toNat xm.toNat else blackSample
      | none => blackSample
    | .table => mappedPixel b (f.source m) xm.toNat ym.toNat
    | .grid => mappedPixel b (gridSample b.size) xm.toNat ym.toNat

/-- The pixel as sent: black while a mute cause has been in force for the frame (R8, R15). -/
def OutFrame.pixel (f : OutFrame) (b : Bank) (m : FrameMemory) (x y : Nat) : Sample :=
  if f.black then blackSample else f.openPixel b m x y

/-- The luminance of a pixel (R20). -/
def luminance (p : Sample) : Nat := (2 * p.r.toNat + 5 * p.g.toNat + p.b.toNat) / 8

/-- The pixels of an output line, column 0 first. -/
def OutFrame.line (f : OutFrame) (b : Bank) (m : FrameMemory) (y : Nat) : List Sample :=
  if f.black then List.replicate Config.panelColumns blackSample
  else (List.range Config.panelColumns).map fun x => f.pixel b m x y

/-- The light of an output line (R20); a line sent black counts 0. -/
def OutFrame.lineLight (f : OutFrame) (b : Bank) (m : FrameMemory) (y : Nat) : Nat :=
  if f.black then 0 else ((f.line b m y).map luminance).sum

/-- The light fraction of a frame sum (R21). -/
def lightFraction (sum : Nat) : Nat := (sum * 1000 + 4242585600) / 8485171200

end Sys2Proof.Machine
end

