-- ==== Sys2Proof/Machine/Generation.lean ====
section
/-! DEFINITION. Validation (R30), margins (R37) and the corner generation's arithmetic (R45 to R49). Exact
rationals are carried as integers over the products of the two edges' heights; Laws/Generation.lean says
that these are the rationals of the rules. -/

namespace Sys2Proof.Machine

/-! ### Validation (R30) -/

def outside (lo hi x : Int) : Bool := decide (x < lo) || decide (hi < x)

/-- The first test a record fails (R30); a DARK record passes. -/
def LineRecord.failure (r : LineRecord) : Option TableTest :=
  if r.kind = 0 then none
  else if r.kind ≠ 1 then some .kind
  else if 3839 < r.xLeft ∨ r.xRight < 1 ∨ 3840 < r.xRight
      ∨ outside (-268435456) 536870911 r.u0 = true ∨ outside (-268435456) 536870911 r.v0 = true
      ∨ outside (-262144) 262144 r.du = true ∨ outside (-16384) 16384 r.dv = true then some .range
  else if r.xRight ≤ r.xLeft then some .order
  else if 4194304 < r.dv.natAbs * (r.xRight - r.xLeft - 1) then some .rowSpan
  else none

/-- The first failing line of listed records, in line order, with its test. -/
def firstFailure : Store LineRecord → Option (Nat × TableTest)
  | [] => none
  | (j, r) :: rest => match r.failure with
    | some t => some (j, t)
    | none => firstFailure rest

/-- The first failing line of a bank with its test (R30); unlisted lines are DARK and pass. -/
def Bank.validate (b : Bank) : Option (Nat × TableTest) := firstFailure b.records

/-! ### Margins (R37) -/

def LineRecord.lit (r : LineRecord) : Bool := r.kind == 1

/-- The margins of a bank from its LIT records; without one all four are 0. -/
def Bank.margins (b : Bank) : Margins :=
  match b.records.filter (fun p => p.2.lit) with
  | [] => zeroMargins
  | (j, r) :: rest =>
    { up := rest.foldl (fun m p => min m p.1) j
      down := 2159 - rest.foldl (fun m p => max m p.1) j
      left := rest.foldl (fun m p => min m p.2.xLeft) r.xLeft
      right := 3839 - rest.foldl (fun m p => max m (p.2.xRight - 1)) (r.xRight - 1) }

/-! ### Corner generation -/

/-- The integers behind the exact values of R45 for line j: over the heights `dl` and `dr` of the two edges,
xl = `xlN`/`dl`, xr = `xrN`/`dr`, vL = `vlN`/`dl`, vR = `vrN`/`dr`, and wd = `wdN`/(`dl`·`dr`). -/
structure EdgeLine where
  dl : Int
  dr : Int
  xlN : Int
  xrN : Int
  vlN : Int
  vrN : Int
  deriving DecidableEq, Repr

def EdgeLine.wdN (e : EdgeLine) : Int := e.xrN * e.dl - e.xlN * e.dr

/-- The exact values of line j (R45). -/
def edgeLine (c : CornerSet) (z : Size) (j : Nat) : EdgeLine :=
  let dl := c.bl.y - c.tl.y
  let dr := c.br.y - c.tr.y
  { dl := dl
    dr := dr
    xlN := c.tl.x * dl + (c.bl.x - c.tl.x) * ((j : Int) - c.tl.y)
    xrN := c.tr.x * dr + (c.br.x - c.tr.x) * ((j : Int) - c.tr.y)
    vlN := ((z.h : Int) - 1) * ((j : Int) - c.tl.y)
    vrN := ((z.h : Int) - 1) * ((j : Int) - c.tr.y) }

/-- The line is too narrow (R46): wd below (W − 1)/4 or below 64, both exact. -/
def EdgeLine.tooNarrow (e : EdgeLine) (z : Size) : Bool :=
  decide (4 * e.wdN < ((z.w : Int) - 1) * (e.dl * e.dr)) || decide (e.wdN < 64 * (e.dl * e.dr))

/-- The lit span (R47): ceiling(xl) and floor(xr) + 1 clipped to the panel. -/
def EdgeLine.xLeft (e : EdgeLine) : Int := max 0 (-((-e.xlN) / e.dl))

def EdgeLine.xRight (e : EdgeLine) : Int := min 3840 (e.xrN / e.dr + 1)

/-- The record of a line that passes the width test (R47, R48). -/
def EdgeLine.record (e : EdgeLine) (z : Size) : LineRecord :=
  if e.xRight ≤ e.xLeft then darkRecord
  else
    let w : Int := (z.w : Int) - 1
    let off := e.xLeft * e.dl - e.xlN
    let dvN := e.vrN * e.dl - e.vlN * e.dr
    { kind := 1
      xLeft := e.xLeft.toNat
      xRight := e.xRight.toNat
      u0 := roundDiv (65536 * w * off * e.dr) e.wdN
      du := roundDiv (65536 * w * (e.dl * e.dr)) e.wdN
      v0 := roundDiv (65536 * (e.vlN * e.wdN + dvN * off)) (e.wdN * e.dl)
      dv := roundDiv (65536 * dvN) e.wdN }

/-- Line j of a generation: none where it fails BAD_SHAPE (R45, R46). -/
def generatedLine (c : CornerSet) (z : Size) (j : Nat) : Option LineRecord :=
  if (j : Int) < min c.tl.y c.tr.y ∨ max c.bl.y c.br.y < (j : Int) then some darkRecord
  else
    let e := edgeLine c z j
    if e.tooNarrow z then none else some (e.record z)

/-- The records of `n` lines from line j on that are not the DARK record, and the first line that fails
BAD_SHAPE, after which no line is computed (R46). -/
def generatedLines (c : CornerSet) (z : Size) : (n j : Nat) → Store LineRecord × Option Nat
  | 0, _ => ([], none)
  | n + 1, j =>
    match generatedLine c z j with
    | none => ([], some j)
    | some r =>
      let (rest, bad) := generatedLines c z n (j + 1)
      (if r = darkRecord then rest else (j, r) :: rest, bad)

/-- The whole of a generation: the records it leaves and its outcome (R46, R49, R50, R52). -/
def generate (c : CornerSet) (z : Size) : Store LineRecord × GenOutcome :=
  let (records, bad) := generatedLines c z Config.panelRows 0
  (records, match bad with
    | some j => .failed .badShape j
    | none => match firstFailure records with
      | some (j, t) => .failed (.test t) j
      | none => .success)

end Sys2Proof.Machine
end

