-- ==== Sys2Proof/Machine/Tables.lean ====
section
/-! DEFINITION. Line tables, bank exchange and corner generation (spec 02, 03): TABLE_OPEN, TABLE_RUN,
TABLE_COMMIT, CORNERS, GENERATION_END, and the table store's part of a frame start. -/

namespace Sys2Proof.Machine

/-! ### Starting a generation (R43, R44, R54) -/

/-- A generation starts, or restarts, for a size (R43): the load bank becomes GENERATED of that size and
all DARK, load-open clears, and the generator is GENERATING at line 0. -/
def State.startGeneration (s : State) (z : Size) : State :=
  { s with
    table := { s.table.setLoadBank ⟨z, .generated, []⟩ with loadOpen := false }
    gen := { s.gen with running := some z } }

/-- A regeneration request (the table of R44). -/
def State.requestGeneration (s : State) (z : Size) : State :=
  match s.gen.corners, s.gen.running with
  | none, _ => s
  | some _, none => s.startGeneration z
  | some _, some running => if running = z then s else s.startGeneration z

/-- A commit is pending or the corner generator is GENERATING. -/
def State.tableBusy (s : State) : Bool := s.table.commit.isSome || s.gen.running.isSome

/-! ### Messages -/

def tableOpenBody (p : List Word) : State → State × MsgOutcome :=
  readyThen (tableOpenFields p) fun z s =>
    if s.tableBusy then (s, .refused .busy)
    else
      ({ s with table := { s.table.setLoadBank ⟨z, .loaded, []⟩ with loadOpen := true, auto := false } }, .done)

/-- TABLE_OPEN (R26). -/
def execTableOpen (s : State) : Host.Outcome State Fault Refusal := runMessage s (ofKind 0x21#8) tableOpenBody

def tableRunBody (p : List Word) : State → State × MsgOutcome :=
  readyThen (tableRunFields p) fun (start, records) s =>
    if s.tableBusy then (s, .refused .busy)
    else if s.table.loadOpen = false then (s, .refused .badState)
    else ({ s with table := s.table.setLoadBank (bankWriteRun s.table.loadBank start records) }, .done)

/-- TABLE_RUN (R27). -/
def execTableRun (s : State) : Host.Outcome State Fault Refusal := runMessage s (ofKind 0x22#8) tableRunBody

def tableCommitBody (p : List Word) : State → State × MsgOutcome :=
  readyThen (oneField parityCondOf p) fun cond s =>
    if s.tableBusy then (s, .refused .busy)
    else if s.table.loadOpen = false then (s, .refused .badState)
    else match s.table.loadBank.validate with
      | some (line, test) => (s, .badTable line test)
      | none => ({ s with table := { s.table with commit := some cond } }, .done)

/-- TABLE_COMMIT (R29). -/
def execTableCommit (s : State) : Host.Outcome State Fault Refusal :=
  runMessage s (ofKind 0x23#8) tableCommitBody

def cornersBody (p : List Word) : State → State × MsgOutcome :=
  readyThen (cornersFields p) fun c s =>
    if s.tableBusy then (s, .refused .busy)
    else match s.link.lastSize with
      | none => (s, .refused .badState)
      | some z =>
        if z.inFormats = false then (s, .refused .badState)
        else
          (State.startGeneration
            { s with gen := { s.gen with corners := some c }, table := { s.table with auto := true } } z, .done)

/-- CORNERS (R42, R43). -/
def execCorners (s : State) : Host.Outcome State Fault Refusal := runMessage s (ofKind 0x24#8) cornersBody

/-! ### GENERATION_END -/

/-- The running generation ends (R49): the records it computed stand in the load bank; with success the
commit is pending with ANY and the mode is TABLE (R50); with failure the outcome tells why (R52). -/
def State.endGeneration (s : State) : State :=
  match s.gen.running, s.gen.corners with
  | some z, some c =>
    let (records, outcome) := generate c z
    let t := { s with
      table := s.table.setLoadBank { s.table.loadBank with records := records }
      gen := { s.gen with running := none, outcome := outcome } }
    match outcome with
    | .success =>
      State.raise
        { t with table := { t.table with commit := some .any }, picture := { t.picture with mode := .table } }
        .genDone
    | .failed _ _ => t.raise .genFailed
    | .none => t
  | some _, none => s
  | none, _ => s

/-- GENERATION_END (R49). -/
def execGenerationEnd (s : State) : Host.Outcome State Fault Refusal := whenReleased s (·.endGeneration)

/-! ### At a frame start -/

/-- The parity condition is satisfied by a frame start's parity (R31). -/
def ParityCond.satisfied : ParityCond → Parity → Bool
  | .any, _ => true
  | .even, p => p == .even
  | .odd, p => p == .odd

/-- A pending commit that the parity satisfies is taken: the swap (R31, R32, R38). -/
def State.takeCommit (s : State) (parity : Parity) : State :=
  match s.table.commit with
  | some cond =>
    if cond.satisfied parity then
      State.raise { s with table := { s.table with
        active := otherBank s.table.active, loadOpen := false, commit := none
        margins := s.table.loadBank.margins } } .tableSwapped
    else s
  | none => s

/-- What the mismatch check of R34 finds. -/
inductive SizeCheck where
  | same
  | mismatch (z : Size)
  | notMade
  | otherMode
  deriving DecidableEq, Repr

/-- The size recorded for the read slot, where there is one. -/
def Link.readSize (l : Link) : Option Size := l.readSlot.map (fun i => (l.slotRecord i).size)

/-- The mismatch check of the frame that begins (the table of R34). -/
def State.sizeCheck (s : State) : SizeCheck :=
  match s.picture.mode with
  | .table => match s.link.readSize with
    | some z => if z = s.table.activeBank.size then .same else .mismatch z
    | none => .notMade
  | .identity | .grid | .mute => .otherMode

/-- The mismatch run after the check, and what a new run sets off (R35, R36). -/
def State.checkSize (s : State) : State :=
  match s.sizeCheck with
  | .same => { s with table := { s.table with mismatch := none } }
  | .otherMode => { s with table := { s.table with mismatch := none } }
  | .notMade => s
  | .mismatch z =>
    if s.table.mismatch = some z then s
    else
      let t := State.raise { s with table := { s.table with mismatch := some z } } .sizeMismatch
      if t.table.auto then t.requestGeneration z else t

/-- The margins handed to the placement tracker for the frame (the table of R39). -/
def State.handedMargins (s : State) : Margins :=
  match s.picture.mode with
  | .table | .grid => s.table.margins
  | .identity => match s.link.readSize with
    | some z => ⟨0, Config.panelRows - z.h, 0, Config.panelColumns - z.w⟩
    | none => zeroMargins
  | .mute => zeroMargins

end Sys2Proof.Machine
end

