-- ==== Sys2Proof/Machine/Video.lean ====
section
/-! DEFINITION. The video side (spec 01 and 10.1): frame starts, active lines, message slots, the loss of the
link, output lines and the output frame's end; and PICTURE_MODE and INSTALL. -/

namespace Sys2Proof.Machine

/-! ### INPUT_FRAME_START: the link receiver's part -/

/-- A slot marked not complete by R3. -/
def SlotRecord.spoil (r : SlotRecord) : SlotRecord := { r with complete := false, spoiled := true }

/-- The frame start is latched and restarts the loss timer (R160, R161). -/
def Link.latch (l : Link) (parity : Parity) (z : Size) : Link :=
  { l with present := true, timerRunning := true, lastParity := some parity, lastSize := some z }

/-- At the first frame start after a loss both slots are marked not complete and the read slot is given up
(R3). -/
def Link.giveUp (l : Link) : Link :=
  { l with slot0 := l.slot0.spoil, slot1 := l.slot1.spoil, readSlot := none }

/-- The four conditions of R2 on the frame that has just ended. -/
def SlotRecord.whole (r : SlotRecord) : Bool :=
  r.opened && r.size.inFormats && r.counted == r.size.h && !r.spoiled

/-- The input slot is judged and the roles are set (R2). -/
def Link.judge (l : Link) : Link :=
  let r := l.slotRecord l.inputSlot
  if r.whole then
    { l.setSlot l.inputSlot { r with complete := true } with
      readSlot := some l.inputSlot, inputSlot := otherSlot l.inputSlot }
  else l.setSlot l.inputSlot { r with complete := false }

/-- The new frame is opened in the input slot (R1); it can be written only where the part is READY at this
frame start (R1, R22; assumption 16). -/
def Link.openFrame (l : Link) (z : Size) (ready : Bool) : Link :=
  { l.setSlot l.inputSlot ⟨z, false, ready, false, 0⟩ with activeLines := 0, blankingSlots := 0 }

/-- The link receiver at a frame start; a link that was ABSENT returns (R161, R17). -/
def State.linkFrameStart (s : State) (parity : Parity) (z : Size) : State :=
  let ready := s.startup.part == .ready
  if s.link.present then
    { s with link := ((s.link.latch parity z).judge).openFrame z ready }
  else
    State.raise
      { s with
        link := (((s.link.latch parity z).giveUp).judge).openFrame z ready
        picture := { s.picture with mutes := { s.picture.mutes with link := false } } } .linkBack

/-! ### INPUT_FRAME_START: the picture engine's part -/

def SizeCheck.isMismatch : SizeCheck → Bool
  | .mismatch _ => true
  | .same | .notMade | .otherMode => false

/-- SIZE and HOST are decided for the frame that begins (R15, R34). -/
def State.frameCauses (s : State) (c : SizeCheck) : State :=
  { s with picture := { s.picture with
    mutes := { s.picture.mutes with size := c.isMismatch, host := s.picture.mode == .mute } } }

/-- The output frame begins with its parameters fixed (R4); one still in flight is abandoned (R5). -/
def State.beginFrame (s : State) (parity : Parity) : State :=
  { s with picture := { s.picture with
    outParity := parity
    frame := some
      { read := s.link.readSlot.map (fun i => (i, (s.link.slotRecord i).size))
        mode := s.picture.mode, orientation := s.picture.orientation, bank := s.table.active
        dx := s.place.frame.dx, dy := s.place.frame.dy, parity := parity
        black := s.picture.mutes.any, nextRow := 0, sum := 0 } } }

/-- A frame start, in the order the rules give: the link receiver (R160, R161, R3, R2, R1), the swap (R32),
the mismatch check and what it sets off (R34 to R36), SIZE and HOST (R15), the offset within the margins
handed for the frame and the settle decision (R39, R89, R90, R88), the drive step (R119), the output
frame (R4). -/
def State.inputFrameStart (s : State) (parity : Parity) (z : Size) : State :=
  let s1 := (s.linkFrameStart parity z).takeCommit parity
  let s2 := s1.checkSize.frameCauses s1.sizeCheck
  let s3 := s2.placeFrameStart s2.handedMargins
  s3.driveStep.beginFrame parity

/-- INPUT_FRAME_START (R4). -/
def execInputFrameStart (parity : Parity) (w h : Word) (s : State) : Host.Outcome State Fault Refusal :=
  whenReleased s (·.inputFrameStart parity ⟨w.toNat, h.toNat⟩)

/-! ### ACTIVE_LINE -/

/-- An active line (R1): numbered; written while READY into the row of its number, cut to W samples, and
counted where it carries at least W. -/
def State.activeLine (s : State) (samples : List Sample) : State :=
  if s.link.present = false then s
  else
    let l := s.link
    let k := l.activeLines
    let r := l.slotRecord l.inputSlot
    let t := { s with link := { l with activeLines := k + 1 } }
    if s.startup.part = .ready ∧ r.opened = true ∧ r.size.inFormats = true ∧ k < r.size.h then
      { t with
        mem := s.mem.writeRow l.inputSlot k (samples.take r.size.w)
        link := if r.size.w ≤ samples.length then
            t.link.setSlot l.inputSlot { r with counted := r.counted + 1 }
          else t.link }
    else t

/-- ACTIVE_LINE (R1). -/
def execActiveLine (samples : List Sample) (s : State) : Host.Outcome State Fault Refusal :=
  whenReleased s (·.activeLine samples)

/-! ### BLANKING_SLOT -/

/-- A message slot (R160, R162): examined among the first 44 blanking lines of four slots, before the
frame's first active line; a discarded slot counts BAD_CHECK, a good message goes to the intake. -/
def State.blankingSlot (s : State) (words : List Word) : State :=
  if s.link.present = false ∨ 0 < s.link.activeLines ∨ Config.examinedSlots ≤ s.link.blankingSlots then s
  else
    let l := { s.link with blankingSlots := s.link.blankingSlots + 1 }
    match readSlot words with
    | .empty => { s with link := l }
    | .bad => { s with link := { l with badCheck := bump l.badCheck } }
    | .good e => State.arrive { s with link := l } e

/-- BLANKING_SLOT (R162). -/
def execBlankingSlot (words : List Word) (s : State) : Host.Outcome State Fault Refusal :=
  whenReleased s (·.blankingSlot words)

/-! ### LINK_LOSS_TIMEOUT -/

/-- The loss timer expires (R161): the slot being written is marked not complete, LINK mutes, D drops to 0,
LINK_LOST is set and LINK_LOSS is made pending. -/
def State.linkLoss (s : State) : State :=
  if s.link.timerRunning = false then s
  else
    let l := s.link
    (State.raise
      { s with
        link := { l.setSlot l.inputSlot (l.slotRecord l.inputSlot).spoil with
          present := false, timerRunning := false }
        picture := Picture.blacken { s.picture with mutes := { s.picture.mutes with link := true } }
        light := { s.light with d := 0 } } .linkLost).makePending .linkLoss

/-- LINK_LOSS_TIMEOUT (R161). -/
def execLinkLossTimeout (s : State) : Host.Outcome State Fault Refusal := whenReleased s (·.linkLoss)

/-! ### OUTPUT_LINE and OUTPUT_FRAME_END -/

/-- The next line of the frame in flight is sent and its light summed (R5, R20); row 0 goes with the frame's
start and the output parity fixed for it (R4). -/
def State.sendLine (s : State) : State :=
  match s.picture.frame with
  | some f =>
    if f.nextRow < Config.panelRows then
      let b := s.table.bank f.bank
      { s with picture := { s.picture with
        frame := some { f with nextRow := f.nextRow + 1, sum := f.sum + f.lineLight b s.mem f.nextRow }
        panelOut := some
          { row := f.nextRow
            start := if f.nextRow = 0 then some f.parity else none
            pixels := f.line b s.mem f.nextRow } } }
    else s
  | none => s

/-- OUTPUT_LINE (R5). -/
def execOutputLine (s : State) : Host.Outcome State Fault Refusal := whenReleased s (·.sendLine)

/-- The next n lines are sent. -/
def State.sendLines : Nat → State → State
  | 0, s => s
  | n + 1, s => State.sendLines n s.sendLine

/-- The output frame ends with the light of all its lines (R5, R21): the light fraction is stored and
delivered to the light unit (R123). -/
def State.closeFrame (s : State) : State :=
  match s.picture.frame with
  | some f =>
    let l := lightFraction f.sum
    { s with
      picture := { s.picture with frame := none, lastLight := l }
      light := s.light.frameEnded l }
  | none => s

/-- The output frame ends: the lines not yet sent one by one are sent, the 2160th being its last
(assumption 9), and the frame closes. -/
def State.endFrame (s : State) : State :=
  match s.picture.frame with
  | some f => (State.sendLines (Config.panelRows - f.nextRow) s).closeFrame
  | none => s

/-- OUTPUT_FRAME_END (R21). -/
def execOutputFrameEnd (s : State) : Host.Outcome State Fault Refusal := whenReleased s (·.endFrame)

/-! ### PICTURE_MODE and INSTALL -/

def pictureModeBody (p : List Word) : State → State × MsgOutcome :=
  readyThen (oneField modeOf p) fun m s => ({ s with picture := { s.picture with mode := m } }, .done)

/-- PICTURE_MODE (R13). -/
def execPictureMode (s : State) : Host.Outcome State Fault Refusal :=
  runMessage s (ofKind 0x20#8) pictureModeBody

def installBody (p : List Word) : State → State × MsgOutcome :=
  readyThen (oneField orientationOf p) fun o s =>
    if allAxes.any (fun a => (s.axis a).phase.inMove || (s.axis a).phase.isHoming) then (s, .refused .busy)
    else ({ s with picture := { s.picture with orientation := o } }, .done)

/-- INSTALL (R19). -/
def execInstall (s : State) : Host.Outcome State Fault Refusal := runMessage s (ofKind 0x18#8) installBody

end Sys2Proof.Machine
end

