-- ==== Sys2Proof/Machine/Queries.lean ====
section
/-! DEFINITION. QUERY (spec 10.6): the eleven items, each a row of the table. The items of every reply stand in
the order of the owning rule's contents list and are encoded by spec 10.8; where the chapters give an
enumeration no code, it counts from 0 in the order of the owning chapter's table (assumption 14). -/

namespace Sys2Proof.Machine

/-! ### Codes -/

def orientationCode : Orientation → Nat
  | .floor => 0
  | .ceiling => 1

def parityCode : Parity → Nat
  | .even => 1
  | .odd => 2

def modeCode : PictureMode → Nat
  | .identity => 0
  | .table => 1
  | .grid => 2
  | .mute => 3

def slotCode : SlotId → Nat
  | .s0 => 0
  | .s1 => 1

def bankCode : BankId → Nat
  | .a => 0
  | .b => 1

def sourceCode : BankSource → Nat
  | .loaded => 0
  | .generated => 1

def condCode : ParityCond → Nat
  | .any => 0
  | .even => 1
  | .odd => 2

def dirCode : Dir → Nat
  | .raise => 0
  | .lower => 1

def ownerCode : Owner → Nat
  | .commanded => 0
  | .placement => 1
  | .upkeep => 2

def zoneCode : Zone → Nat
  | .laser => 0
  | .dump => 1
  | .lens => 2
  | .none => 3

def phaseCode : Phase → Nat
  | .unhomed => 0
  | .homing _ => 1
  | .idle => 2
  | .moving _ => 3
  | .holding _ => 4
  | .stopping _ _ _ => 5
  | .fault => 6

def intentCode : StopIntent → Nat
  | .idle _ => 0
  | .holding => 1
  | .retarget _ => 2

def placeStateCode : PlaceState → Nat
  | .none => 0
  | .tracking => 1
  | .settled => 2
  | .partly => 3

def fanStateCode : FanState → Nat
  | .stopped => 0
  | .spinup => 1
  | .running => 2
  | .stalled => 3

def partCode : PartState → Nat
  | .starting => 0
  | .ready => 1
  | .failed => 2

def checkCode : SelfCheck → Nat
  | .running => 0
  | .passed => 1
  | .failed => 2

def causeCode : RestartCause → Nat
  | .none => 0
  | .powerOn => 1
  | .supplyDip => 2
  | .soft => 3

def noticeCode : Notice → Nat
  | .none => 0
  | .queued => 1
  | .sent => 2

/-- The level cause: a source as its number, HOST 12, NONE 13. -/
def levelCauseCode : LevelCause → Nat
  | .source x => sourceNumber x
  | .host => 12
  | .none => 13

/-- The last end, one word, followed by its reason, one word. -/
def lastEndWords : LastEnd → List Word
  | .none => [0#16, 0#16]
  | .completed => [1#16, 0#16]
  | .stopped .host => [2#16, 1#16]
  | .stopped .locked => [2#16, 2#16]
  | .stopped .limit => [2#16, 3#16]
  | .slip => [3#16, 0#16]
  | .fault .timeout => [4#16, 4#16]
  | .fault .driver => [4#16, 5#16]
  | .homed => [5#16, 0#16]
  | .homeFailed .noSwitch => [6#16, 6#16]
  | .homeFailed .stuckSwitch => [6#16, 7#16]
  | .homeFailed .stopped => [6#16, 8#16]
  | .homeFailed .locked => [6#16, 2#16]

/-- The code of a generation's reason (spec 10.8). -/
def genReasonCode : GenReason → Nat
  | .badShape => 5
  | .test t => testCode t

def genOutcomeCode : GenOutcome → Nat
  | .none => 0
  | .success => 1
  | .failed _ _ => 2

/-- The reason and the line that only FAILED has (R55). -/
def GenOutcome.failure : GenOutcome → Option (GenReason × Nat)
  | .none | .success => Option.none
  | .failed reason line => some (reason, line)

/-- The last generation outcome (R55): its code, then reason and line as one item that may be absent, a
presence word before the two values (spec 10.8; assumption 13). -/
def genOutcomeWords (o : GenOutcome) : List Word :=
  [natWord (genOutcomeCode o)]
    ++ optWords 2 (fun x => [natWord (genReasonCode x.1), natWord x.2]) o.failure

def sizeWords (z : Size) : List Word := [natWord z.w, natWord z.h]

def marginWords (m : Margins) : List Word := [natWord m.up, natWord m.down, natWord m.left, natWord m.right]

def heatWords (q : Heat) : List Word := [natWord q.laser, natWord q.lens, natWord q.dump]

/-- A fixed table of breakpoints: temperature and value in turn. -/
def breakpointWords (t : List Breakpoint) : List Word := t.flatMap fun p => [intWord p.t, intWord p.value]

/-! ### The items -/

/-- The move record as QUERY AXIS reports it (R82). The number of legs is that of the record as it was made, and
the current leg counts from 1 in it, so that a finished leg still counts after a hold or a resumption
(assumption 34). -/
def recordWords (m : MoveRec) : List Word :=
  [natWord m.target, natWord (ownerCode m.owner), natWord m.profileNo, natWord m.legs.length,
    natWord m.current, natWord ((m.leg.map (·.stop)).getD 0)]

def calWords (c : Cal) : List Word :=
  [natWord c.max, natWord c.backlash, natWord (dirCode c.approach), intWord c.pps, natWord c.reference,
    natWord c.homingProfile, natWord c.timeout, natWord c.slipTolerance]

def Phase.intent : Phase → Option StopIntent
  | .stopping _ x _ => some x
  | .unhomed | .homing _ | .idle | .moving _ | .holding _ | .fault => none

/-- AXIS (R82). -/
def axisItems (s : State) (a : Axis) : List Word :=
  let u := s.axis a
  [natWord (phaseCode u.phase)] ++ optWords 1 (fun x => [natWord (intentCode x)]) u.phase.intent
    ++ [natWord u.pos, flagWord u.homed] ++ optWords 6 recordWords u.phase.record
    ++ [flagWord u.hostLock, flagWord u.protLock] ++ calWords u.cal
    ++ (natWord u.ring.length :: u.ring.map natWord) ++ lastEndWords u.lastEnd
    ++ s.lens.profiles.flatMap fun p => [natWord p.start, natWord p.top, natWord p.ramp]

/-- PLACEMENT (R101). -/
def placementItems (s : State) : List Word :=
  let p := s.place
  let f := p.frame
  [natWord (placeStateCode p.state), intWord p.ox, intWord p.oy, natWord p.posVt, natWord p.posHt,
    flagWord p.outV, flagWord p.outH, flagWord p.shortV, flagWord p.shortH, flagWord p.settleDue,
    intWord f.dxRaw, intWord f.dyRaw, intWord f.dx, intWord f.dy, flagWord f.clampedX, flagWord f.clampedY]
    ++ marginWords f.margins ++ [flagWord s.focus.upkeep] ++ breakpointWords s.focus.table
    ++ [intWord s.focus.desired, intWord s.focus.applied, intWord s.focus.base]
    ++ optWords 1 (fun c => [intWord c]) s.focus.record

/-- One sensor of SENSORS. -/
def sensorItems (t : Sensors) (u : SensorUnit) : List Word :=
  [natWord u.window, natWord u.index, natWord u.trip]
    ++ optWords 3 (fun p => [natWord p.window, natWord p.index, natWord p.trip]) u.pend
    ++ [intWord (t.threshold u), intWord u.release]
    ++ optWords 1 (fun x => [intWord x]) u.raw ++ optWords 1 (fun x => [intWord x]) u.reading
    ++ [flagWord u.high, flagWord u.fault, intWord u.fanReading]

/-- SENSORS (R115): 16 words a sensor and the criteria table. -/
def sensorsItems (s : State) : List Word :=
  allSensors.flatMap (fun x => sensorItems s.sensors (s.sensor x)) ++ s.sensors.criteria.map intWord

/-- The whole fan record (R130). -/
def fanRecordWords (r : FanRecord) : List Word :=
  [natWord (sensorNumber r.sensor)] ++ breakpointWords r.floorSet ++ breakpointWords r.ceilingSet
    ++ [natWord (zoneCode r.zone), natWord r.gain, natWord r.quietCap, natWord r.stallSpeed]

/-- One fan of FANS. -/
def fanItems (u : FanUnit) : List Word :=
  [natWord (fanStateCode u.state), natWord u.duty, natWord u.spin, natWord u.stallRun, natWord u.recovery,
    natWord u.speed] ++ u.history.map natWord
    ++ [natWord u.lastCurve, natWord u.lastFF, natWord u.lastDemand, intWord u.readingUsed]
    ++ fanRecordWords u.record

/-- FANS (R146). -/
def fansItems (s : State) : List Word :=
  [flagWord s.fans.quiet, natWord s.fans.floor, flagWord s.fans.capLifted,
    natWord (orientationCode s.fans.curveSet)] ++ allFans.flatMap fun x => fanItems (s.fan x)

/-- LIGHT (R129); the last word, whether the averaged period had frames, in STARTING as assumption 37 says. -/
def lightItems (s : State) : List Word :=
  [natWord s.light.b, natWord s.light.d, natWord s.light.limit, natWord s.driveTarget]
    ++ heatWords s.light.split ++ [natWord s.light.accN] ++ heatWords s.light.avg
    ++ [flagWord s.light.avgFrames]

def actionWords (a : Actions) : List Word :=
  [natWord a.limit, natWord a.floor, flagWord a.capLifted, flagWord a.lensLock, flagWord a.mute]

/-- PROTECTION (R159). -/
def protectionItems (s : State) : List Word :=
  [natWord s.prot.c, natWord (levelCauseCode s.prot.cause)]
    ++ allSources.flatMap (fun x =>
        [flagWord (s.prot.pending.get x), natWord (s.prot.levels.get x), flagWord (s.persists x)])
    ++ actionWords s.prot.table.level1 ++ actionWords s.prot.table.level2 ++ actionWords s.prot.table.level3
    ++ [flagWord s.gateClosed]

/-- EVENTS (R174). -/
def eventsItems (s : State) : List Word :=
  flagWords s.sender.flags ++ flagWords s.sender.mask ++ [natWord (noticeCode s.sender.notice)]

/-- COUNTERS (R175). -/
def countersItems (s : State) : List Word :=
  [natWord s.link.badCheck, natWord s.intake.dropped, natWord s.place.offTarget, natWord s.intake.free,
    natWord s.intake.urgent.length, natWord s.intake.motion.length, natWord s.intake.setup.length,
    natWord s.intake.replies.length]

def bankWords (b : Bank) : List Word := sizeWords b.size ++ [natWord (sourceCode b.source)]

def cornerWords (c : CornerSet) : List Word :=
  [c.tl, c.tr, c.bl, c.br].flatMap fun p => [intWord p.x, intWord p.y]

/-- TABLE (R40, R55). -/
def tableItems (s : State) : List Word :=
  let t := s.table
  [natWord (bankCode t.active)] ++ bankWords t.bankA ++ bankWords t.bankB
    ++ [flagWord t.loadOpen, flagWord t.auto] ++ optWords 1 (fun c => [natWord (condCode c)]) t.commit
    ++ marginWords t.margins ++ optWords 2 sizeWords t.mismatch
    ++ [flagWord s.gen.running.isSome] ++ optWords 2 sizeWords s.gen.running
    ++ optWords 8 cornerWords s.gen.corners ++ genOutcomeWords s.gen.outcome

/-- CAUSE (R180). -/
def causeItems (s : State) : List Word :=
  [natWord (partCode s.startup.part), natWord (checkCode s.startup.check), natWord (causeCode s.startup.cause)]

/-- PICTURE (R174). -/
def pictureItems (s : State) : List Word :=
  let x := s.picture
  let l := s.link
  [natWord (modeCode x.mode), natWord (orientationCode x.orientation), flagWord x.mutes.starting,
    flagWord x.mutes.memory, flagWord x.mutes.size, flagWord x.mutes.prot, flagWord x.mutes.host,
    flagWord x.mutes.link, natWord x.lastLight, natWord (parityCode x.outParity), flagWord l.present]
    ++ optWords 1 (fun p => [natWord (parityCode p)]) l.lastParity ++ optWords 2 sizeWords l.lastSize
    ++ [natWord (slotCode l.inputSlot)] ++ optWords 1 (fun i => [natWord (slotCode i)]) l.readSlot
    ++ [flagWord l.slot0.complete, flagWord l.slot1.complete]

/-! ### The rows -/

/-- The highest item code (R174). -/
def lastItem : Nat := 10

/-- A QUERY that this item's row ends: one of its code; and one that names no item at all, which every
QUERY row refuses alike (assumption 2). -/
def ofItem (item : Nat) (e : Envelope) : Bool :=
  e.kind == 0x61#8 && match e.payload with
    | [code, _] => code.toNat == item || decide (lastItem < code.toNat)
    | _ => true

/-- A QUERY whose reply only reports (R174). -/
def reportBody (item top : Nat) (items : Nat → State → List Word) (p : List Word) :
    State → State × MsgOutcome :=
  fieldsThen (queryField item top p) fun x s => (s, .data (items x s))

/-- The axis of a parameter 0..2. -/
def axisNumbered : Nat → Axis
  | 0 => .v
  | 1 => .h
  | _ => .f

/-- QUERY_AXIS (R82). -/
def execQueryAxis (s : State) : Host.Outcome State Fault Refusal :=
  runMessage s (ofItem 0) (reportBody 0 2 fun x s => axisItems s (axisNumbered x))

/-- QUERY_PLACEMENT (R101). -/
def execQueryPlacement (s : State) : Host.Outcome State Fault Refusal :=
  runMessage s (ofItem 1) (reportBody 1 0 fun _ => placementItems)

/-- QUERY_SENSORS (R115). -/
def execQuerySensors (s : State) : Host.Outcome State Fault Refusal :=
  runMessage s (ofItem 2) (reportBody 2 0 fun _ => sensorsItems)

/-- QUERY_FANS (R146). -/
def execQueryFans (s : State) : Host.Outcome State Fault Refusal :=
  runMessage s (ofItem 3) (reportBody 3 0 fun _ => fansItems)

/-- QUERY_LIGHT (R129). -/
def execQueryLight (s : State) : Host.Outcome State Fault Refusal :=
  runMessage s (ofItem 4) (reportBody 4 0 fun _ => lightItems)

/-- QUERY_PROTECTION (R159). -/
def execQueryProtection (s : State) : Host.Outcome State Fault Refusal :=
  runMessage s (ofItem 5) (reportBody 5 0 fun _ => protectionItems)

/-- QUERY_EVENTS (R174). -/
def execQueryEvents (s : State) : Host.Outcome State Fault Refusal :=
  runMessage s (ofItem 6) (reportBody 6 0 fun _ => eventsItems)

/-- The three counters are set to 0 (R175). -/
def State.clearCounters (s : State) : State :=
  { s with
    link := { s.link with badCheck := 0 }
    intake := { s.intake with dropped := 0 }
    place := { s.place with offTarget := 0 } }

def countersBody (p : List Word) : State → State × MsgOutcome :=
  fieldsThen (queryField 7 1 p) fun x s =>
    (if x = 1 then s.clearCounters else s, .data (countersItems s))

/-- QUERY_COUNTERS (R175). -/
def execQueryCounters (s : State) : Host.Outcome State Fault Refusal := runMessage s (ofItem 7) countersBody

/-- QUERY_TABLE (R40, R55). -/
def execQueryTable (s : State) : Host.Outcome State Fault Refusal :=
  runMessage s (ofItem 8) (reportBody 8 0 fun _ => tableItems)

def causeBody (p : List Word) : State → State × MsgOutcome :=
  fieldsThen (queryField 9 1 p) fun x s =>
    (if x = 1 then { s with startup := { s.startup with cause := .none } } else s, .data (causeItems s))

/-- QUERY_CAUSE (R180). -/
def execQueryCause (s : State) : Host.Outcome State Fault Refusal := runMessage s (ofItem 9) causeBody

/-- QUERY_PICTURE (R174). -/
def execQueryPicture (s : State) : Host.Outcome State Fault Refusal :=
  runMessage s (ofItem 10) (reportBody 10 0 fun _ => pictureItems)

end Sys2Proof.Machine
end

