-- ==== Sys2Proof/Machine/Restart.lean ====
section
/-! DEFINITION. Start-up and restarts (spec 11): POWER_ON_RESET, SUPPLY_DIP_RESET, HELD_IN_RESET,
SELF_CHECK_DONE and SOFT_RESET. -/

namespace Sys2Proof.Machine

/-! ### Power-on and supply-dip reset (R178) -/

/-- Every block at its power-on values; the waiting commands and the input pins are the outside's and stay,
and the contents of the frame memory become undefined. -/
def State.powerOnValues (s : State) (cause : RestartCause) (hold : Hold) : State :=
  { State.reset with
    pending := s.pending, pins := s.pins, hold := hold, mem := s.mem.forget
    startup := ⟨.starting, .running, cause⟩ }

/-- The part is released: the cause is POWER_ON where the power-on input took part in the hold (R178). -/
def State.release (s : State) (sawPowerOn : Bool) : State :=
  s.powerOnValues (if sawPowerOn then .powerOn else .supplyDip) ⟨false, false, false⟩

/-- POWER_ON_RESET (R178): while the supply monitor still holds, the part stays held. -/
def execPowerOnReset (s : State) : Host.Outcome State Fault Refusal :=
  .next (if s.hold.supply then { s with hold := ⟨false, true, true⟩ } else s.release true)

/-- SUPPLY_DIP_RESET (R178): while the power-on input still holds, the part stays held. -/
def execSupplyDipReset (s : State) : Host.Outcome State Fault Refusal :=
  .next (if s.hold.powerOn then { s with hold := ⟨true, false, true⟩ } else s.release s.hold.sawPowerOn)

/-- The hold after an input takes hold. -/
def Hold.take (h : Hold) : ResetInput → Hold
  | .powerOn => ⟨true, h.supply, true⟩
  | .supply => ⟨h.powerOn, true, h.sawPowerOn⟩

/-- HELD_IN_RESET (R178): everything in flight is abandoned without event or outcome, and the outputs are
quiet; until the release the blocks stand at their power-on values, the restart cause as it was
(assumption 8). -/
def execHeldInReset (i : ResetInput) (s : State) : Host.Outcome State Fault Refusal :=
  .next (s.powerOnValues s.startup.cause (s.hold.take i))

/-! ### The self-check (R179) -/

/-- The self-check ends as its own event (the table of R179). -/
def State.checkEnds (s : State) (passed : Bool) : State :=
  if s.startup.check = .running then
    let m := { s.picture.mutes with starting := false }
    if passed then
      State.raise
        { s with
          startup := { s.startup with part := .ready, check := .passed }
          picture := { s.picture with mutes := m } } .ready
    else
      State.makePending
        { s with
          startup := { s.startup with part := .failed, check := .failed }
          picture := Picture.blacken { s.picture with mutes := { m with memory := true } } } .memoryFault
  else s

/-- SELF_CHECK_DONE (R179). -/
def execSelfCheckDone (passed : Bool) (s : State) : Host.Outcome State Fault Refusal :=
  whenReleased s (·.checkEnds passed)

/-! ### SOFT_RESET (R184) -/

/-- An axis at SOFT_RESET (the table of R58). -/
def AxisUnit.softReset (u : AxisUnit) : AxisUnit :=
  let v := { u with hostLock := false, protLock := false, lastEnd := .none }
  match u.phase with
  | .idle => v
  | .unhomed | .homing _ | .moving _ | .holding _ | .stopping _ _ _ | .fault =>
    { v with phase := .unhomed, pos := 0, ring := [] }

/-- The lens controller at SOFT_RESET (R58, R61). -/
def Lens.softReset (l : Lens) : Lens :=
  ⟨⟨l.axes.v.softReset, l.axes.h.softReset, l.axes.f.softReset⟩, defaultProfiles⟩

/-- The focus state at SOFT_RESET (R95): the base is F's position where F stays IDLE and homed. -/
def softResetFocus (f : AxisUnit) : Focus :=
  { powerOnFocus with base := if f.phase = .idle then (f.pos : Int) else 0 }

/-- A sensor at SOFT_RESET (R113): settings default, reading and last raw sample kept, comparator LOW,
fault flag clear. -/
def SensorUnit.softReset (u : SensorUnit) (x : Sensor) : SensorUnit :=
  { powerOnSensor x with raw := u.raw, reading := u.reading }

def Sensors.softReset (x : Sensors) : Sensors :=
  ⟨⟨x.units.laser.softReset .laser, x.units.panel.softReset .panel, x.units.dump.softReset .dump,
    x.units.lens.softReset .lens⟩, defaultCriteria⟩

/-- The fan controller at SOFT_RESET (R131): records, quiet mode, floor and cap lifting to defaults; every
fan's running state kept; stalls reported again at the next update. -/
def Fans.softReset (x : Fans) : Fans :=
  { x with
    quiet := false, floor := 0, capLifted := false, reReport := true
    units := ⟨{ x.units.intake with record := defaultFanRecord .intake },
      { x.units.light with record := defaultFanRecord .light },
      { x.units.exhaust with record := defaultFanRecord .exhaust }⟩ }

/-- The link receiver at SOFT_RESET (R161, R3). -/
def Link.softReset (l : Link) : Link :=
  { l with badCheck := 0, inputSlot := .s0, readSlot := none, slot0 := resetSlot, slot1 := resetSlot }

/-- The picture engine at SOFT_RESET (R22, R15): a frame in flight finishes black; LINK is kept where the
link is ABSENT (assumption 17). -/
def Picture.softReset (x : Picture) (present : Bool) : Picture :=
  Picture.blacken
    { x with
      mode := .identity, orientation := .floor, lastLight := 0, outParity := .even
      mutes := { resetMutes with link := !present && x.mutes.link } }

/-- The acceptance of SOFT_RESET (R184): every block applies its SOFT_RESET values; then, with the link
ABSENT, the loss is reported again (R161). -/
def State.softReset (s : State) : State :=
  let t : State :=
    { s with
      startup := ⟨.starting, .running, .soft⟩
      link := s.link.softReset
      mem := s.mem.forget
      intake := resetIntake
      sender := { powerOnSender with laneOut := s.sender.laneOut }
      picture := s.picture.softReset s.link.present
      table := resetTable
      gen := resetGen
      lens := s.lens.softReset
      place := resetPlacement
      focus := softResetFocus (s.axis .f)
      sensors := s.sensors.softReset
      light := resetLight
      fans := s.fans.softReset
      prot := resetProtection }
  if s.link.present then t else (t.raise .linkLost).makePending .linkLoss

/-- SOFT_RESET (R184): carried out from the executor slot; it writes no outcome. -/
def execSoftReset (s : State) : Host.Outcome State Fault Refusal :=
  whenReleased s fun s =>
    match s.intake.slot with
    | some e => if e.kind = 0x06#8 then s.softReset else s
    | none => s

end Sys2Proof.Machine
end

