-- ==== Sys2Proof/Machine/Dispatch.lean ====
section
/-! DEFINITION. What each command does: one arm per constructor of Instr, one direct call of its meaning. -/

namespace Sys2Proof.Machine

/-- The effect of a command on everything but the queue of waiting commands. -/
def exec (i : Instr) (s : State) : Host.Outcome State Fault Refusal :=
  match i with
  | .powerOnReset => Sys2Proof.Machine.execPowerOnReset s
  | .supplyDipReset => Sys2Proof.Machine.execSupplyDipReset s
  | .selfCheckDone passed => Sys2Proof.Machine.execSelfCheckDone passed s
  | .inputFrameStart parity w h => Sys2Proof.Machine.execInputFrameStart parity w h s
  | .activeLine samples => Sys2Proof.Machine.execActiveLine samples s
  | .blankingSlot words => Sys2Proof.Machine.execBlankingSlot words s
  | .linkLossTimeout => Sys2Proof.Machine.execLinkLossTimeout s
  | .outputLine => Sys2Proof.Machine.execOutputLine s
  | .outputFrameEnd => Sys2Proof.Machine.execOutputFrameEnd s
  | .sendOpportunity ready => Sys2Proof.Machine.execSendOpportunity ready s
  | .fanUpdate => Sys2Proof.Machine.execFanUpdate s
  | .tachPulse fan => Sys2Proof.Machine.execTachPulse fan s
  | .windowEnd sensor raw => Sys2Proof.Machine.execWindowEnd sensor raw s
  | .axisStep axis => Sys2Proof.Machine.execAxisStep axis s
  | .limitSwitchClose axis => Sys2Proof.Machine.execLimitSwitchClose axis s
  | .limitSwitchOpen axis => Sys2Proof.Machine.execLimitSwitchOpen axis s
  | .homingBoundReached axis => Sys2Proof.Machine.execHomingBoundReached axis s
  | .moveTimeout axis => Sys2Proof.Machine.execMoveTimeout axis s
  | .driverFault axis asserted => Sys2Proof.Machine.execDriverFault axis asserted s
  | .generationEnd => Sys2Proof.Machine.execGenerationEnd s
  | .stop => Sys2Proof.Machine.execStop s
  | .lock => Sys2Proof.Machine.execLock s
  | .unlock => Sys2Proof.Machine.execUnlock s
  | .clear => Sys2Proof.Machine.execClear s
  | .lower => Sys2Proof.Machine.execLower s
  | .eventAck => Sys2Proof.Machine.execEventAck s
  | .softReset => Sys2Proof.Machine.execSoftReset s
  | .move => Sys2Proof.Machine.execMove s
  | .hold => Sys2Proof.Machine.execHold s
  | .resume => Sys2Proof.Machine.execResume s
  | .returnMove => Sys2Proof.Machine.execReturnMove s
  | .home => Sys2Proof.Machine.execHome s
  | .place => Sys2Proof.Machine.execPlace s
  | .placeCancel => Sys2Proof.Machine.execPlaceCancel s
  | .install => Sys2Proof.Machine.execInstall s
  | .pictureMode => Sys2Proof.Machine.execPictureMode s
  | .tableOpen => Sys2Proof.Machine.execTableOpen s
  | .tableRun => Sys2Proof.Machine.execTableRun s
  | .tableCommit => Sys2Proof.Machine.execTableCommit s
  | .corners => Sys2Proof.Machine.execCorners s
  | .lensCal => Sys2Proof.Machine.execLensCal s
  | .profile => Sys2Proof.Machine.execProfile s
  | .focusTable => Sys2Proof.Machine.execFocusTable s
  | .focusUpkeep => Sys2Proof.Machine.execFocusUpkeep s
  | .sensorSet => Sys2Proof.Machine.execSensorSet s
  | .thresholds => Sys2Proof.Machine.execThresholds s
  | .brightness => Sys2Proof.Machine.execBrightness s
  | .fanCurve => Sys2Proof.Machine.execFanCurve s
  | .fanLimits => Sys2Proof.Machine.execFanLimits s
  | .quiet => Sys2Proof.Machine.execQuiet s
  | .levels => Sys2Proof.Machine.execLevels s
  | .actions => Sys2Proof.Machine.execActions s
  | .eventMask => Sys2Proof.Machine.execEventMask s
  | .queryAxis => Sys2Proof.Machine.execQueryAxis s
  | .queryPlacement => Sys2Proof.Machine.execQueryPlacement s
  | .querySensors => Sys2Proof.Machine.execQuerySensors s
  | .queryFans => Sys2Proof.Machine.execQueryFans s
  | .queryLight => Sys2Proof.Machine.execQueryLight s
  | .queryProtection => Sys2Proof.Machine.execQueryProtection s
  | .queryEvents => Sys2Proof.Machine.execQueryEvents s
  | .queryCounters => Sys2Proof.Machine.execQueryCounters s
  | .queryTable => Sys2Proof.Machine.execQueryTable s
  | .queryCause => Sys2Proof.Machine.execQueryCause s
  | .queryPicture => Sys2Proof.Machine.execQueryPicture s
  | .unknownKind => Sys2Proof.Machine.execUnknownKind s
  | .heldInReset input => Sys2Proof.Machine.execHeldInReset input s

end Sys2Proof.Machine
end

