-- ==== Sys2Proof/Safety.lean ====
section
/-! DEFINITION. What a sound state is: the promises the chapters make of the whole part, block by block, each
a predicate that every step keeps and that holds at State.reset; and the words the claims use for a
message under execution. -/

namespace Sys2Proof.Machine

/-! ### Intake (R164, R166) -/

/-- The envelopes on the three command queues. -/
def Intake.queued (i : Intake) : Nat := i.urgent.length + i.motion.length + i.setup.length

/-- All envelopes: free, queued, in the executor slot, on the reply queue (R164). -/
def Intake.total (i : Intake) : Nat :=
  i.free + i.queued + (if i.slot.isSome then 1 else 0) + i.replies.length

/-- The envelopes are 32, each queue holds its own class, and no message waits at an empty executor slot. -/
structure Intake.Sound (i : Intake) : Prop where
  total : i.total = Config.envelopes
  urgent : ∀ e ∈ i.urgent, classOf e.kind = .urgent
  motion : ∀ e ∈ i.motion, classOf e.kind = .motion
  setup : ∀ e ∈ i.setup, classOf e.kind = .setup
  taken : i.slot = none → i.queued = 0

/-! ### Reply sender (R170, R171) -/

/-- Only bits that name a flag are held, and the notice tells whether the host is still to be called. -/
structure Sender.Sound (x : Sender) : Prop where
  flags : x.flags &&& ~~~ flagBits = 0#32
  mask : x.mask &&& ~~~ flagBits = 0#32
  quiet : x.notice = .none → x.attention = false
  queued : x.notice = .queued → x.attention = true

/-! ### Protection (R147, R150 to R153) -/

def Actions.inRange (a : Actions) : Prop := a.limit ≤ 1000 ∧ a.floor ≤ 1000

/-- The action table holds values in range and is monotone (R151, R152). -/
structure ActionTable.Sound (t : ActionTable) : Prop where
  one : t.level1.inRange
  two : t.level2.inRange
  three : t.level3.inRange
  lower : t.level1.below t.level2 = true
  upper : t.level2.below t.level3 = true

/-- The levels are levels, no pending source asks for more than C (R150), and C is 0 exactly without a
cause. -/
structure Protection.Sound (p : Protection) : Prop where
  trip : p.levels.trip = 4
  levels : ∀ x, x ≠ Source.trip → p.levels.get x ≤ 3
  current : p.c ≤ 4
  noneAbove : ∀ x, p.pending.get x = true → p.levels.get x ≤ p.c
  cause : p.cause = .none ↔ p.c = 0

/-- The actions of the current level are in force at the four consumers (R153). -/
structure State.ActionsInForce (s : State) : Prop where
  limit : s.light.limit = (s.prot.table.actions s.prot.c).limit
  floor : s.fans.floor = (s.prot.table.actions s.prot.c).floor
  lifted : s.fans.capLifted = (s.prot.table.actions s.prot.c).capLifted
  lock : ∀ a, (s.axis a).protLock = (s.prot.table.actions s.prot.c).lensLock
  mute : s.picture.mutes.prot = (s.prot.table.actions s.prot.c).mute

/-! ### Light (R116, R120, R123) -/

/-- Each value is a share of full drive, and lens and dump together take what the laser gives. -/
structure Heat.Split (q : Heat) (top : Nat) : Prop where
  total : q.lens + q.dump = q.laser
  bound : q.laser ≤ top

structure Light.Sound (x : Light) : Prop where
  brightness : x.b ≤ 1000
  limit : x.limit ≤ 1000
  drive : x.d ≤ x.limit
  split : x.split.Split 1000
  sums : x.accSum.Split (1000 * x.accN)
  averages : x.avg.laser ≤ 1000 ∧ x.avg.lens ≤ 1000 ∧ x.avg.dump ≤ 1000

/-! ### Fans (R130, R135 to R141) -/

/-- A curve set (R130). -/
structure CurveSound (t : List Breakpoint) : Prop where
  six : t.length = 6
  rises : rising (t.map (·.t)) = true
  duties : nonFalling (t.map (·.value)) = true
  range : ∀ p ∈ t, 0 ≤ p.value ∧ p.value ≤ 1000

structure FanRecord.Sound (r : FanRecord) : Prop where
  floorSet : CurveSound r.floorSet
  ceilingSet : CurveSound r.ceilingSet
  gain : r.gain ≤ 1000
  quietCap : 200 ≤ r.quietCap ∧ r.quietCap ≤ 1000

/-- A fan at a delivered floor: its duty is never below it, a stopped fan has duty 0, and a fan in spin-up has
duty 1000 and a count of at most 5. -/
structure FanUnit.Sound (u : FanUnit) (floor : Nat) : Prop where
  record : u.record.Sound
  floor : floor ≤ u.duty
  top : u.duty ≤ 1000
  stopped : u.state = .stopped → u.duty = 0
  spinup : u.state = .spinup → u.duty = 1000 ∧ u.spin ≤ 5
  history : u.history.length = 5
  counts : u.stallRun ≤ 3 ∧ u.recovery ≤ 3
  running : u.state = .running → u.stallRun ≤ 2
  stalled : u.state = .stalled → u.recovery ≤ 2

/-! ### Lens (R57 to R75) -/

structure Cal.Sound (c : Cal) (a : Axis) : Prop where
  max : 100 ≤ c.max ∧ c.max ≤ 65000
  backlash : c.backlash ≤ 255
  pps : a ≠ .f → c.pps ≠ 0
  reference : c.reference ≤ c.max

structure Profile.Sound (p : Profile) : Prop where
  start : 100 ≤ p.start
  top : p.start ≤ p.top ∧ p.top ≤ 4000
  ramp : p.ramp ≤ 2000

/-- A move record of an axis at a position: every leg and the target lie within the travel, and the steps a
deceleration would take remain in the current leg (R63, R71). -/
structure MoveRec.Sound (m : MoveRec) (max pos : Nat) : Prop where
  target : m.target ≤ max
  legs : ∀ leg ∈ m.legs, leg.stop ≤ max
  current : 1 ≤ m.current ∧ m.current ≤ m.legs.length
  slowing : ∀ leg, m.leg = some leg → m.lastIndex ≤ leg.rest pos

/-- What an axis may be doing while a lock is set (R75): nothing that begins or carries on a move. -/
def Phase.underLock : Phase → Bool
  | .unhomed | .idle | .fault => true
  | .stopping _ (.idle _) _ => true
  | .homing run => run.halt.isSome
  | .moving _ | .holding _ | .stopping _ .holding _ | .stopping _ (.retarget _) _ => false

structure AxisUnit.Sound (u : AxisUnit) (a : Axis) : Prop where
  cal : u.cal.Sound a
  unhomed : u.homed = false → u.pos = 0 ∧ u.ring = []
  position : u.pos ≤ u.cal.max
  ring : u.ring.length ≤ 8 ∧ ∀ p ∈ u.ring, p ≤ u.cal.max
  record : ∀ m, u.phase.record = some m → m.Sound u.cal.max u.pos
  stopping : ∀ m intent left, u.phase = .stopping m intent left →
    (∀ leg, m.leg = some leg → left ≤ leg.rest u.pos) ∧ ∀ t, intent = .retarget t → t ≤ u.cal.max
  locked : u.locked = true → u.phase.underLock = true

structure Lens.Sound (l : Lens) : Prop where
  axes : ∀ a, (l.axes.get a).Sound a
  four : l.profiles.length = 4
  profiles : ∀ p ∈ l.profiles, p.Sound

/-! ### Placement and focus (R84 to R101) -/

/-- An outstanding flag stands only while its axis makes a placement move, settle due only in TRACKING with
both reports in, the digital offset of the latest frame lies within the margins handed for it, an upkeep record
stands only while F makes an upkeep move, and only a placement move is retargeted. -/
structure State.PlacementSound (s : State) : Prop where
  outV : s.place.outV = true → ∃ m, (s.axis .v).phase.record = some m ∧ m.owner = .placement
  outH : s.place.outH = true → ∃ m, (s.axis .h).phase.record = some m ∧ m.owner = .placement
  tracking : s.place.state ≠ .tracking →
    s.place.outV = false ∧ s.place.outH = false ∧ s.place.settleDue = false
  settle : s.place.state = .tracking →
    (s.place.settleDue = true ↔ s.place.outV = false ∧ s.place.outH = false)
  dx : -(s.place.frame.margins.left : Int) ≤ s.place.frame.dx
    ∧ s.place.frame.dx ≤ s.place.frame.margins.right
  dy : -(s.place.frame.margins.up : Int) ≤ s.place.frame.dy ∧ s.place.frame.dy ≤ s.place.frame.margins.down
  upkeep : s.focus.record.isSome = true → ∃ m, (s.axis .f).phase.record = some m ∧ m.owner = .upkeep
  retarget : ∀ a m target left, (s.axis a).phase = .stopping m (.retarget target) left → m.owner = .placement

/-! ### Sensors (R102 to R111) -/

structure SensorSettings.Sound (p : SensorSettings) : Prop where
  window : 10 ≤ p.window ∧ p.window ≤ 250
  index : p.index ≤ 15
  trip : p.trip ≤ 600

structure SensorUnit.Sound (u : SensorUnit) : Prop where
  settings : SensorSettings.Sound ⟨u.window, u.index, u.trip⟩
  pend : ∀ p, u.pend = some p → p.Sound
  reading : ∀ r, u.reading = some r → -160 ≤ r ∧ r ≤ 600
  high : u.high = true → u.reading.isSome = true

structure Sensors.Sound (x : Sensors) : Prop where
  units : ∀ i, (x.units.get i).Sound
  criteria : x.criteria.length = 16 ∧ rising x.criteria = true

/-! ### Tables and generation (R23 to R56) -/

/-- The active bank has passed validation and so has a bank whose commit is pending; a request for a
generation never meets a pending commit (R30, R44, R51). -/
structure State.TablesSound (s : State) : Prop where
  bankA : bankWf s.table.bankA
  bankB : bankWf s.table.bankB
  active : s.table.activeBank.validate = none
  committed : s.table.commit.isSome = true → s.table.loadBank.validate = none ∧ s.gen.running = none
  opened : s.table.loadOpen = true → s.table.auto = false ∧ s.gen.running = none
  host : ∀ cond, s.table.commit = some cond → cond ≠ .any → s.table.loadOpen = true
  corners : s.table.auto = true ∨ s.gen.running.isSome = true → s.gen.corners.isSome = true
  margins : s.table.margins = s.table.activeBank.margins

/-! ### Picture and link (R1 to R21) -/

/-- A slot that can be read: complete, with a size within the fixed formats (R2). -/
def SlotRecord.readable (r : SlotRecord) : Prop := r.complete = true ∧ r.size.inFormats = true

/-- A frame in flight is black once a mute cause is in force (R15), and its light is the light of the lines
sent (R20): at most full white for each. -/
structure OutFrame.Sound (f : OutFrame) (mutes : Mutes) : Prop where
  black : mutes.any = true → f.black = true
  rows : f.nextRow ≤ Config.panelRows
  light : f.sum ≤ 1023 * Config.panelColumns * f.nextRow

/-- The link receiver never writes the slot that is read (R2), and the frame in flight reads the read slot,
unless it is black. -/
structure State.PictureSound (s : State) : Prop where
  roles : ∀ i, s.link.readSlot = some i → s.link.inputSlot = otherSlot i ∧ (s.link.slotRecord i).readable
  frame : ∀ f, s.picture.frame = some f → f.Sound s.picture.mutes
  read : ∀ f i z, s.picture.frame = some f → f.black = false → f.read = some (i, z) →
    s.link.readSlot = some i ∧ z = (s.link.slotRecord i).size
  light : s.picture.lastLight ≤ 1000
  memory : frameWf s.mem

/-! ### Start-up (R178, R179) -/

structure State.StartupSound (s : State) : Prop where
  starting : s.startup.part = .starting ↔ s.startup.check = .running
  ready : s.startup.part = .ready ↔ s.startup.check = .passed
  startMute : s.picture.mutes.starting = true ↔ s.startup.part = .starting
  memoryMute : s.picture.mutes.memory = true ↔ s.startup.part = .failed

/-! ### The part as a whole -/

/-- Every promise together. -/
structure State.Sound (s : State) : Prop where
  intake : s.intake.Sound
  sender : s.sender.Sound
  table : s.prot.table.Sound
  prot : s.prot.Sound
  inForce : s.ActionsInForce
  light : s.light.Sound
  fans : ∀ x, (s.fan x).Sound s.fans.floor
  lens : s.lens.Sound
  placement : s.PlacementSound
  sensors : s.sensors.Sound
  tables : s.TablesSound
  picture : s.PictureSound
  startup : s.StartupSound

/-! ### A leg that begins with the driver fault asserted (R79) -/

/-- Between `s` and `t` the beginning of a leg of axis `a` has found the driver fault input asserted: the axis is in
FAULT before any step of the leg, with what R57, R79, R93 and R98 let follow. An axis that the delivery of
LENS_FAULT's level does not newly lock keeps everything but its protection lock, and where LENS_FAULT was pending
already nothing is delivered. The axis's direction output is left open (assumption 35). -/
structure State.FaultedAtLeg (s t : State) (a : Axis) : Prop where
  axis : t.axis a = { s.axis a with
    phase := .fault, pos := 0, ring := [], lastEnd := .fault .driver
    dirOut := (t.axis a).dirOut, protLock := (t.axis a).protLock }
  event : t.sender.has (.axisFault a) = true
  raised : t.prot.pending.get .lensFault = true
  placement : a ≠ .f → t.place = s.place.cancelled
  focus : a = .f → t.focus = { s.focus with base := 0, applied := 0, record := none }
  others : ∀ b, b ≠ a → (t.axis b).protLock = false ∨ (s.axis b).locked = true →
    t.axis b = { s.axis b with protLock := (t.axis b).protLock }
  again : s.prot.pending.get .lensFault = true →
    t.prot = s.prot ∧ t.light = s.light ∧ t.fans = s.fans ∧ t.picture = s.picture ∧ ∀ b, b ≠ a → t.axis b = s.axis b
  profiles : t.lens.profiles = s.lens.profiles
  startup : t.startup = s.startup
  link : t.link = s.link
  mem : t.mem = s.mem
  intake : t.intake = s.intake
  table : t.table = s.table
  gen : t.gen = s.gen
  sensors : t.sensors = s.sensors
  pins : t.pins = s.pins
  hold : t.hold = s.hold
  pending : t.pending = s.pending

/-! ### A message under execution -/

/-- The executor slot holds a message of this kind with this payload, in a part that is not held in reset
(R166, R178). -/
structure State.Executes (s : State) (e : Envelope) (kind : Byte) (p : List Word) : Prop where
  free : s.hold.held = false
  slot : s.intake.slot = some e
  kind : e.kind = kind
  payload : e.payload = p

/-- The words that name an axis, a sensor and a fan (spec 10.8). -/
def axisWord (a : Axis) : Word := BitVec.ofNat 16 (axisNumber a)

def sensorWord (x : Sensor) : Word := BitVec.ofNat 16 (sensorNumber x)

def fanWord (x : Fan) : Word := BitVec.ofNat 16 (fanNumber x)

/-- The state with the execution's outcome written and the next message taken (R166, R167). -/
def State.ended (s : State) (e : Envelope) (o : MsgOutcome) : State :=
  { s with intake := s.intake.finish e o }

end Sys2Proof.Machine
end

