-- ==== Sys2Proof/Certificates/Slice0/Obligations.lean ====
section
/-! DEFINITION. The statements for the provers. A statement about a message says what the command of its row
does when the executor slot holds that message (`State.Executes`): the next state is the state after the
message's own effect, with its outcome written (`State.ended`), and everything not named is unchanged. -/

section

open Sys2Proof Sys2Proof.Machine

/-! ### Steps and resets -/

/-- A step takes the command at the front of the queue and carries it out on the rest; on an empty queue the
part idles (the idling is the model's choice, assumption 3). -/
def Obligations.StepRunsFrontCommand : Prop :=
  (∀ (c : Instr) (rest : List Instr) (s : State),
    step { s with pending := c :: rest } = exec c { s with pending := rest })
  ∧ ∀ s : State, s.pending = [] → step s = .next s

/-- No command stops the part: each answers a next state, whatever the state (spec 95; that a command
whose operation is not in flight changes nothing is the model's choice, assumption 1). It leaves the waiting
commands alone; only the pin commands change the input pins, and only the reset commands the hold. -/
def Obligations.NoCommandStopsThePart : Prop :=
  ∀ (c : Instr) (s : State), ∃ t, exec c s = .next t
    ∧ t.pending = s.pending
    ∧ ((∀ a, c ≠ .limitSwitchClose a) → (∀ a, c ≠ .limitSwitchOpen a) → (∀ a b, c ≠ .driverFault a b) →
        t.pins = s.pins)
    ∧ (c ≠ .powerOnReset → c ≠ .supplyDipReset → (∀ i, c ≠ .heldInReset i) → t.hold = s.hold)

/-- The values after power-on reset that the chapters give, block by block (R3, R12, R15, R18, R22 to R24, R41,
R58, R59, R61, R84, R95, R102, R116, R130, R131, R147, R151, R161, R171, R176, R178). The model's own
bookkeeping and output fields (assumptions 6, 20, 27, 28) are not spoken of. -/
def Obligations.ResetHoldsPowerOnValues : Prop :=
  let s := State.reset
  s.startup = ⟨.starting, .running, .powerOn⟩
  ∧ s.link.present = false ∧ s.link.timerRunning = false ∧ s.link.lastParity = none
  ∧ s.link.lastSize = none ∧ s.link.badCheck = 0 ∧ s.link.inputSlot = .s0 ∧ s.link.readSlot = none
  ∧ s.link.slot0.complete = false ∧ s.link.slot1.complete = false
  ∧ s.intake = { free := 32, urgent := [], motion := [], setup := [], slot := none, replies := [], dropped := 0 }
  ∧ s.sender.flags = 0#32 ∧ (∀ e : EventFlag, s.sender.mask.getLsbD (flagBit e) = true)
  ∧ s.sender.notice = .none
  ∧ s.picture.mode = .identity ∧ s.picture.orientation = .floor
  ∧ s.picture.mutes = ⟨true, false, false, false, false, false⟩
  ∧ s.picture.lastLight = 0 ∧ s.picture.outParity = .even ∧ s.picture.frame = none
  ∧ s.table.active = .a ∧ s.table.loadOpen = false ∧ s.table.commit = none ∧ s.table.auto = false
  ∧ s.table.margins = ⟨0, 0, 0, 0⟩ ∧ s.table.mismatch = none
  ∧ (∀ i, (s.table.bank i).size = ⟨3840, 2160⟩ ∧ (s.table.bank i).source = .loaded
      ∧ ∀ j, (bankRecord (s.table.bank i) j).kind = 0)
  ∧ s.gen = ⟨none, none, .none⟩
  ∧ (∀ a, (s.axis a).phase = .unhomed ∧ (s.axis a).pos = 0 ∧ (s.axis a).locked = false
      ∧ (s.axis a).ring = [] ∧ (s.axis a).lastEnd = .none)
  ∧ (s.axis .v).cal = ⟨12000, 24, .raise, 256, 6000, 3, 50, 8⟩
  ∧ (s.axis .h).cal = ⟨6000, 16, .raise, 205, 3000, 3, 30, 8⟩
  ∧ (s.axis .f).cal = ⟨4000, 8, .raise, 0, 2000, 3, 20, 8⟩
  ∧ s.lens.profiles = [⟨200, 400, 50⟩, ⟨400, 2000, 400⟩, ⟨400, 3000, 800⟩, ⟨300, 300, 0⟩]
  ∧ s.place = { state := .none, ox := 0, oy := 0, posVt := 0, posHt := 0, outV := false, outH := false
                shortV := false, shortH := false, settleDue := false
                frame := ⟨0, 0, 0, 0, false, false, ⟨0, 0, 0, 0⟩⟩, offTarget := 0 }
  ∧ s.focus = { upkeep := false, desired := 0, applied := 0, base := 0, record := none
                table := [⟨0, 0⟩, ⟨40, 0⟩, ⟨80, 0⟩, ⟨120, 0⟩, ⟨160, 0⟩, ⟨200, 0⟩, ⟨240, 0⟩, ⟨280, 0⟩] }
  ∧ (∀ x, (s.sensor x).window = 50 ∧ (s.sensor x).pend = none ∧ (s.sensor x).raw = none
      ∧ (s.sensor x).reading = none ∧ (s.sensor x).high = false ∧ (s.sensor x).fault = false)
  ∧ allSensors.map (fun x => ((s.sensor x).index, (s.sensor x).trip)) = [(9, 420), (5, 300), (10, 440), (4, 280)]
  ∧ s.sensors.criteria =
      [160, 180, 200, 220, 240, 260, 280, 300, 320, 340, 360, 380, 400, 420, 440, 460]
  ∧ s.light = { b := 0, d := 0, limit := 1000, split := ⟨0, 0, 0⟩, accN := 0, accSum := ⟨0, 0, 0⟩
                avg := ⟨0, 0, 0⟩, avgFrames := false }
  ∧ s.fans.quiet = false ∧ s.fans.floor = 0 ∧ s.fans.capLifted = false ∧ s.fans.curveSet = .floor
  ∧ (∀ x, s.fan x = { record := (s.fan x).record, state := .stopped, duty := 0, spin := 0
                      history := [0, 0, 0, 0, 0], count := 0, speed := 0, stallRun := 0, recovery := 0
                      lastCurve := 0, lastFF := 0, lastDemand := 0, readingUsed := 0 })
  ∧ (s.fan .intake).record = ⟨.panel,
      [⟨160, 200⟩, ⟨200, 250⟩, ⟨230, 350⟩, ⟨260, 500⟩, ⟨280, 700⟩, ⟨300, 1000⟩],
      [⟨160, 220⟩, ⟨200, 280⟩, ⟨230, 400⟩, ⟨260, 560⟩, ⟨280, 760⟩, ⟨300, 1000⟩], .none, 0, 400, 300⟩
  ∧ (s.fan .light).record = ⟨.laser,
      [⟨240, 200⟩, ⟨300, 310⟩, ⟨340, 470⟩, ⟨370, 620⟩, ⟨400, 820⟩, ⟨420, 1000⟩],
      [⟨240, 220⟩, ⟨300, 330⟩, ⟨340, 490⟩, ⟨370, 650⟩, ⟨400, 850⟩, ⟨420, 1000⟩], .laser, 800, 450, 300⟩
  ∧ (s.fan .exhaust).record = ⟨.dump,
      [⟨280, 200⟩, ⟨320, 280⟩, ⟨360, 420⟩, ⟨390, 600⟩, ⟨420, 800⟩, ⟨440, 1000⟩],
      [⟨280, 230⟩, ⟨320, 320⟩, ⟨360, 470⟩, ⟨390, 650⟩, ⟨420, 850⟩, ⟨440, 1000⟩], .dump, 600, 450, 300⟩
  ∧ (∀ x, s.prot.pending.get x = false) ∧ s.prot.c = 0 ∧ s.prot.cause = .none
  ∧ allSources.map s.prot.levels.get = [4, 2, 2, 1, 1, 3, 2, 3, 2, 0, 1, 0]
  ∧ s.prot.table = ⟨⟨800, 300, false, false, false⟩, ⟨500, 600, true, false, false⟩,
      ⟨200, 1000, true, true, false⟩⟩

/-- A release gives every block its power-on values, with the cause POWER_ON where the power-on input took
part in the hold; a release of one input while the other still holds leaves the part held; and while held
the outputs are quiet (that the blocks stand at their power-on values during the hold is the model's
choice, assumption 8). -/
def Obligations.ReleaseGivesPowerOnValues : Prop :=
  ∀ s : State,
    let fresh := fun (cause : RestartCause) =>
      { State.reset with pending := s.pending, pins := s.pins, mem := s.mem.forget,
                         startup := ⟨.starting, .running, cause⟩ }
    (s.hold.supply = false → exec .powerOnReset s = .next (fresh .powerOn))
    ∧ (s.hold.supply = true → exec .powerOnReset s = .next { s with hold := ⟨false, true, true⟩ })
    ∧ (s.hold.powerOn = false →
        exec .supplyDipReset s = .next (fresh (if s.hold.sawPowerOn then .powerOn else .supplyDip)))
    ∧ (s.hold.powerOn = true → exec .supplyDipReset s = .next { s with hold := ⟨true, false, true⟩ })
    ∧ ∀ i, ∃ t, exec (.heldInReset i) s = .next t ∧ t.hold.held = true
        ∧ (i = .powerOn → t.hold.sawPowerOn = true) ∧ t.startup.cause = s.startup.cause
        ∧ t.pending = s.pending ∧ t.pins = s.pins ∧ (∀ x, t.pwmOut x = 0) ∧ t.driveLine = 0
        ∧ t.sender.laneOut = none ∧ t.picture.panelOut = none ∧ ∀ a, (t.axis a).phase = .unhomed

/-- While a reset input holds the part it does nothing: its fan outputs and its drive line carry 0, and no
command but the reset rows changes anything beside the levels of the input pins. -/
def Obligations.HeldPartDoesNothing : Prop :=
  ∀ (c : Instr) (s : State), s.hold.held = true →
    (∀ x, s.pwmOut x = 0) ∧ s.driveLine = 0
    ∧ (c ≠ .powerOnReset → c ≠ .supplyDipReset → (∀ i, c ≠ .heldInReset i) →
        ∃ pins, exec c s = .next { s with pins := pins }
          ∧ ((∀ a, c ≠ .limitSwitchClose a) → (∀ a, c ≠ .limitSwitchOpen a) →
              (∀ a b, c ≠ .driverFault a b) → pins = s.pins))

/-- The memory self-check's end (R179): READY with its event, or FAILED with MEMORY in force and MEMORY_FAULT
made pending. -/
def Obligations.SelfCheckDecidesThePart : Prop :=
  ∀ s : State, s.hold.held = false → s.startup.check = .running →
    exec (.selfCheckDone true) s = .next (State.raise
      { s with startup := { s.startup with part := .ready, check := .passed }
               picture := { s.picture with mutes := { s.picture.mutes with starting := false } } } .ready)
    ∧ ∃ t, exec (.selfCheckDone false) s = .next t
        ∧ t.startup = { s.startup with part := .failed, check := .failed }
        ∧ t.picture.mutes.starting = false ∧ t.picture.mutes.memory = true
        ∧ (∀ f, t.picture.frame = some f → f.black = true)
        ∧ t.prot.pending.get .memoryFault = true
        ∧ t.link = s.link ∧ t.intake = s.intake ∧ t.table = s.table ∧ t.gen = s.gen ∧ t.mem = s.mem
        ∧ t.sensors = s.sensors ∧ t.pins = s.pins ∧ t.hold = s.hold ∧ t.pending = s.pending

/-- SOFT_RESET (R184): what the acceptance keeps and what it returns to defaults, block by block (R3, R22, R24,
R41, R58, R84, R95, R113, R116, R131, R147, R161, R176); the frame in flight is kept and finishes black; with the
link ABSENT the loss is reported again, and the light unit and the fans take the actions of level 1. Three clauses rest on the model's choices: the LINK mute cause (assumption 17), the slot records
(assumption 28), and the present frame's counts of lines and slots, which stay (assumption 31). -/
def Obligations.SoftResetKeepsAndDiscards : Prop :=
  ∀ (s : State) (e : Envelope) (p : List Word), s.Executes e 0x06#8 p →
    ∃ t, exec .softReset s = .next t
      ∧ t.startup = ⟨.starting, .running, .soft⟩
      ∧ t.link = { s.link with badCheck := 0, inputSlot := .s0, readSlot := none,
                               slot0 := resetSlot, slot1 := resetSlot }
      ∧ t.intake = resetIntake ∧ t.sender.mask = flagBits
      ∧ t.picture.frame = s.picture.frame.map (fun f => { f with black := true })
      ∧ t.picture.mode = .identity ∧ t.picture.orientation = .floor ∧ t.picture.lastLight = 0
      ∧ t.picture.outParity = .even
      ∧ t.picture.mutes = { starting := true, memory := false, size := false, prot := false, host := false
                            link := !s.link.present && s.picture.mutes.link }
      ∧ t.table = resetTable ∧ t.gen = resetGen ∧ t.place = resetPlacement
      ∧ (∀ a, (t.axis a).cal = (s.axis a).cal ∧ (t.axis a).hostLock = false
          ∧ (t.axis a).protLock = false ∧ (t.axis a).lastEnd = .none
          ∧ ((s.axis a).phase = .idle → (t.axis a).phase = .idle ∧ (t.axis a).pos = (s.axis a).pos
              ∧ (t.axis a).ring = (s.axis a).ring)
          ∧ ((s.axis a).phase ≠ .idle → (t.axis a).phase = .unhomed ∧ (t.axis a).pos = 0
              ∧ (t.axis a).ring = []))
      ∧ t.lens.profiles = defaultProfiles
      ∧ t.focus = { upkeep := false, table := flatCompensation, desired := 0, applied := 0, record := none
                    base := if (s.axis .f).phase = .idle then ((s.axis .f).pos : Int) else 0 }
      ∧ (∀ x, (t.sensor x).reading = (s.sensor x).reading ∧ (t.sensor x).raw = (s.sensor x).raw
          ∧ (t.sensor x).high = false ∧ (t.sensor x).fault = false ∧ (t.sensor x).pend = none
          ∧ (t.sensor x).window = 50 ∧ (t.sensor x).index = defaultIndex x
          ∧ (t.sensor x).trip = defaultTrip x)
      ∧ t.sensors.criteria = defaultCriteria
      ∧ t.light = { b := 0, d := 0, limit := if s.link.present then 1000 else 800, split := ⟨0, 0, 0⟩, accN := 0
                    accSum := ⟨0, 0, 0⟩, avg := ⟨0, 0, 0⟩, avgFrames := false }
      ∧ t.fans.quiet = false ∧ t.fans.capLifted = false ∧ t.fans.curveSet = s.fans.curveSet
      ∧ t.prot.levels = defaultLevels ∧ t.prot.table = defaultActions
      ∧ (s.link.present = true → t.prot = resetProtection ∧ t.sender.flags = 0#32 ∧ t.sender.notice = .none
          ∧ t.fans.floor = 0 ∧ ∀ x, t.fan x = { s.fan x with record := defaultFanRecord x })
      ∧ (s.link.present = false →
          t.prot = { resetProtection with
            pending := resetProtection.pending.set .linkLoss true, c := 1, cause := .source .linkLoss }
          ∧ (∀ f, t.sender.has f = true ↔ f = .linkLost ∨ f = .sourcePending ∨ f = .levelChanged)
          ∧ t.sender.notice = .queued ∧ t.fans.floor = 300
          ∧ ∀ x,
            let v := { s.fan x with record := defaultFanRecord x }
            t.fan x = if 300 ≤ v.duty then v else match v.state with
              | .stopped => { v with state := .spinup, duty := 1000, spin := 0 }
              | .running => { v with duty := 300 }
              | .stalled => { v with duty := 300 }
              | .spinup => v)
      ∧ t.pending = s.pending ∧ t.pins = s.pins ∧ t.hold = s.hold

/-! ### Promises that every step keeps -/

/-- Every promise of Safety.lean holds after reset. -/
def Obligations.EveryPromiseHoldsAtReset : Prop := State.reset.Sound

/-- The envelopes are always 32, the queues hold their own classes, and no message waits at an empty executor
slot (R164, R165, R166). -/
def Obligations.EnvelopesAreAlways32 : Prop :=
  ∀ s t : State, s.intake.Sound → step s = .next t → t.intake.Sound

/-- The 29 flags and the mask hold no other bit; a notice in NONE means no masked-in flag is set, and one
QUEUED means that one is (R170, R171). -/
def Obligations.NoticeStandsForMaskedFlags : Prop :=
  ∀ s t : State, s.sender.Sound → step s = .next t → t.sender.Sound

/-- No pending source has a level above C; C is a level, and 0 exactly without a cause (R147, R150, R157). -/
def Obligations.NoPendingSourceAboveTheLevel : Prop :=
  ∀ s t : State, s.prot.Sound → step s = .next t → t.prot.Sound

/-- The action table stays in range and monotone, and the actions of C stay in force at the light unit, the
fans, the picture and the locks of all three axes (R151 to R153). -/
def Obligations.ActionsOfTheLevelStayInForce : Prop :=
  ∀ s t : State, s.prot.table.Sound → s.ActionsInForce → step s = .next t →
    t.prot.table.Sound ∧ t.ActionsInForce

/-- D never exceeds the light limit, and heat is split without loss (R120, R123, R125). -/
def Obligations.DriveStaysUnderTheLimit : Prop :=
  ∀ s t : State, s.prot.table.Sound → s.PictureSound → s.light.Sound → step s = .next t → t.light.Sound

/-- At level 4 the light is off and the picture black (R16, R120). -/
def Obligations.LevelFourIsDark : Prop :=
  ∀ s t : State, s.Sound → step s = .next t → t.prot.c = 4 →
    t.light.d = 0 ∧ t.picture.mutes.prot = true ∧ ∀ f, t.picture.frame = some f → f.black = true

/-- Every fan's duty is at least the delivered floor and at most 1000; a stopped fan has duty 0 and one in
spin-up duty 1000 (R135 to R141). -/
def Obligations.FansNeverFallBelowTheFloor : Prop :=
  ∀ s t : State, s.prot.table.Sound → s.ActionsInForce → s.light.Sound →
    (∀ x, (s.fan x).Sound s.fans.floor) → step s = .next t → ∀ x, (t.fan x).Sound t.fans.floor

/-- A homed axis stays within its travel, one not homed stands at 0 with an empty ring, a deceleration ends
within its leg, and a locked axis begins no move (R57, R63, R69, R71, R75). -/
def Obligations.AxesStayWithinTravel : Prop :=
  ∀ s t : State, s.lens.Sound → step s = .next t → t.lens.Sound

/-- An outstanding flag stands only while its axis makes a placement move, settle due means both have
ended, and the digital offset lies within the margins handed for its frame (R87, R90, R91). -/
def Obligations.PlacementFollowsItsMoves : Prop :=
  ∀ s t : State, s.PlacementSound → step s = .next t → t.PlacementSound

/-- Every reading stays within −160..600 and every setting in its range (R102, R105, R111). -/
def Obligations.ReadingsStayInRange : Prop :=
  ∀ s t : State, s.sensors.Sound → step s = .next t → t.sensors.Sound

/-- The active bank has always passed validation, its margins are those held, and a request for a generation
never meets a pending commit (R30, R38, R44, R51); the banks keep their canonical form. -/
def Obligations.ActiveBankIsValidated : Prop :=
  ∀ s t : State, s.TablesSound → step s = .next t → t.TablesSound

/-- A frame is black from the moment a mute cause is in force, STARTING while the part is STARTING and MEMORY
while it is FAILED among them; the slot being read is never written, every light fraction is at most 1000,
and the frame memory keeps its canonical form (R2, R15, R21, R118, R179). -/
def Obligations.MutedFramesAreBlack : Prop :=
  ∀ s t : State, s.PictureSound → s.StartupSound → step s = .next t → t.PictureSound ∧ t.StartupSound

/-! ### The link and the picture -/

/-- A frame start latches parity and size, judges the input slot and sets the roles (R1, R2, R3, R160, R161). -/
def Obligations.FrameStartSetsSlotRoles : Prop :=
  ∀ (s : State) (parity : Parity) (w h : Word), s.hold.held = false →
    ∃ t, exec (.inputFrameStart parity w h) s = .next t
      ∧ t.link.present = true ∧ t.link.timerRunning = true ∧ t.link.lastParity = some parity
      ∧ t.link.lastSize = some ⟨w.toNat, h.toNat⟩ ∧ t.link.badCheck = s.link.badCheck
      ∧ t.link.activeLines = 0 ∧ t.link.blankingSlots = 0
      ∧ t.link.slotRecord t.link.inputSlot
          = ⟨⟨w.toNat, h.toNat⟩, false, s.startup.part == .ready, false, 0⟩
      ∧ (s.link.present = false → t.sender.has .linkBack = true ∧ t.picture.mutes.link = false
          ∧ t.link.inputSlot = s.link.inputSlot ∧ t.link.readSlot = none
          ∧ ∀ i, (t.link.slotRecord i).complete = false)
      ∧ (s.link.present = true →
          let r := s.link.slotRecord s.link.inputSlot
          (r.opened = true ∧ r.size.inFormats = true ∧ r.counted = r.size.h ∧ r.spoiled = false →
            t.link.readSlot = some s.link.inputSlot ∧ t.link.inputSlot = otherSlot s.link.inputSlot
              ∧ t.link.slotRecord s.link.inputSlot = { r with complete := true })
          ∧ (¬ (r.opened = true ∧ r.size.inFormats = true ∧ r.counted = r.size.h ∧ r.spoiled = false) →
            t.link.readSlot = s.link.readSlot ∧ t.link.inputSlot = s.link.inputSlot
              ∧ t.link.slotRecord (otherSlot s.link.inputSlot)
                  = s.link.slotRecord (otherSlot s.link.inputSlot)))

/-- A frame start begins one output frame with its parameters fixed for the whole frame, moves D one step, and
leaves the blocks that have no part in it (R4, R15, R119). -/
def Obligations.FrameStartBeginsOneFrame : Prop :=
  ∀ (s : State) (parity : Parity) (w h : Word), s.hold.held = false →
    ∃ t, exec (.inputFrameStart parity w h) s = .next t
      ∧ t.picture.outParity = parity
      ∧ t.picture.frame = some
          { read := t.link.readSlot.map (fun i => (i, (t.link.slotRecord i).size))
            mode := s.picture.mode, orientation := s.picture.orientation, bank := t.table.active
            dx := t.place.frame.dx, dy := t.place.frame.dy, parity := parity
            black := t.picture.mutes.any, nextRow := 0, sum := 0 }
      ∧ t.picture.mode = s.picture.mode ∧ t.picture.orientation = s.picture.orientation
      ∧ t.picture.lastLight = s.picture.lastLight
      ∧ t.picture.mutes.host = (s.picture.mode == .mute)
      ∧ (t.picture.mutes.size = true ↔ s.picture.mode = .table ∧
          ∃ i, t.link.readSlot = some i ∧ (t.link.slotRecord i).size ≠ t.table.activeBank.size)
      ∧ (let target := if s.startup.part = .ready ∧ t.picture.mutes.any = false then min s.light.b s.light.limit
            else 0
         t.light = { s.light with d :=
          if s.light.limit < s.light.d then s.light.limit
          else if s.light.d < target then min (s.light.d + 20) target
          else if target < s.light.d then max (s.light.d - 20) target else s.light.d })
      ∧ t.startup = s.startup ∧ t.mem = s.mem ∧ t.intake = s.intake ∧ t.lens = s.lens ∧ t.focus = s.focus
      ∧ t.sensors = s.sensors ∧ t.fans = s.fans ∧ t.prot = s.prot ∧ t.pins = s.pins ∧ t.hold = s.hold
      ∧ t.pending = s.pending

/-- The first thing at a frame start in the table store is the swap: a pending commit whose parity condition the
frame start meets turns the active bank, clears load-open, takes the new bank's margins and sets
TABLE_SWAPPED; otherwise the commit waits (R31, R32, R38). Then the mismatch check (R34 to R36): in TABLE mode
a read slot of another size than the active bank continues its run, or starts one with SIZE_MISMATCH set;
under AUTO a new run requests a generation for its size (R44), which starts one, or restarts one running for
another size (R54), and changes nothing where one runs for that size already. An equal size, or another mode,
ends the run; no read slot leaves it. -/
def Obligations.FrameStartTakesThePendingCommit : Prop :=
  ∀ (s : State) (parity : Parity) (w h : Word), s.hold.held = false →
    ∃ t, exec (.inputFrameStart parity w h) s = .next t
      ∧ (∀ cond, s.table.commit = some cond →
          (cond = .any ∨ (cond = .even ∧ parity = .even) ∨ (cond = .odd ∧ parity = .odd) →
            t.table.active = otherBank s.table.active ∧ t.table.loadOpen = false ∧ t.table.commit = none
              ∧ t.table.activeBank = s.table.loadBank ∧ t.table.margins = s.table.loadBank.margins
              ∧ t.sender.has .tableSwapped = true)
          ∧ ((cond = .even ∧ parity = .odd) ∨ (cond = .odd ∧ parity = .even) →
            t.table.active = s.table.active ∧ t.table.commit = some cond
              ∧ t.table.activeBank = s.table.activeBank ∧ t.table.margins = s.table.margins))
      ∧ (s.table.commit = none → t.table.active = s.table.active ∧ t.table.commit = none
          ∧ t.table.activeBank = s.table.activeBank ∧ t.table.margins = s.table.margins)
      ∧ t.table.auto = s.table.auto
      ∧ (let source := t.link.readSlot.map fun i => (t.link.slotRecord i).size
         let noRequest := t.gen = s.gen ∧ ∀ i, t.table.bank i = s.table.bank i
         let noEvent := t.sender.has .sizeMismatch = s.sender.has .sizeMismatch
         (s.picture.mode ≠ .table → t.table.mismatch = none ∧ noRequest ∧ noEvent)
         ∧ (s.picture.mode = .table →
           (source = none → t.table.mismatch = s.table.mismatch ∧ noRequest ∧ noEvent)
           ∧ (source = some t.table.activeBank.size → t.table.mismatch = none ∧ noRequest ∧ noEvent)
           ∧ ∀ z, source = some z → z ≠ t.table.activeBank.size →
              t.table.mismatch = some z
              ∧ (s.table.mismatch = some z → noRequest ∧ noEvent)
              ∧ (s.table.mismatch ≠ some z → t.sender.has .sizeMismatch = true
                  ∧ (s.table.auto = false ∨ s.gen.running = some z → noRequest)
                  ∧ (s.table.auto = true → s.gen.corners ≠ none → s.gen.running ≠ some z →
                      t.gen = { s.gen with running := some z } ∧ t.table.loadOpen = false
                      ∧ t.table.loadBank.size = z ∧ t.table.loadBank.source = .generated
                      ∧ (∀ j, bankRecord t.table.loadBank j = darkRecord)
                      ∧ t.table.activeBank = s.table.bank t.table.active))))

/-- The margins handed for a frame are the active bank's in TABLE and GRID modes, the identity extent of the
read slot in IDENTITY mode, and 0 otherwise (R39). While a placement is active, the raw offset of a frame is
the target less the optical offset, rounded with ties away from zero, the offset is that raw offset held within the
margins, and an offset that is not clamped leaves the picture within half a pixel of its target (R89, R90, R91); with
settle due the decision follows (R88). The factor 1024 clears the denominator of the optical offset. -/
def Obligations.UnclampedOffsetIsWithinHalfAPixel : Prop :=
  ∀ (s : State) (parity : Parity) (w h : Word), s.hold.held = false →
    ∃ t, exec (.inputFrameStart parity w h) s = .next t
      ∧ t.place.frame.margins = (match s.picture.mode with
          | .table | .grid => t.table.margins
          | .identity => match t.link.readSlot.map fun i => (t.link.slotRecord i).size with
            | some z => ⟨0, 2160 - z.h, 0, 3840 - z.w⟩
            | none => ⟨0, 0, 0, 0⟩
          | .mute => ⟨0, 0, 0, 0⟩)
      ∧ (s.place.state = .none → t.place.frame.dx = 0 ∧ t.place.frame.dy = 0
          ∧ t.place.frame.clampedX = false ∧ t.place.frame.clampedY = false
          ∧ t.place.offTarget = s.place.offTarget)
      ∧ (s.place.state ≠ .none →
          let o := t.place.frame
          let optX := (((s.axis .h).pos : Int) - (s.axis .h).cal.reference) * (s.axis .h).cal.pps
          let optY := (((s.axis .v).pos : Int) - (s.axis .v).cal.reference) * (s.axis .v).cal.pps
          2 * |s.place.ox * 1024 - optX - o.dxRaw * 1024| ≤ 1024
          ∧ 2 * |s.place.oy * 1024 - optY - o.dyRaw * 1024| ≤ 1024
          ∧ (2 * |s.place.ox * 1024 - optX - o.dxRaw * 1024| = 1024 →
              |s.place.ox * 1024 - optX| < |o.dxRaw * 1024|)
          ∧ (2 * |s.place.oy * 1024 - optY - o.dyRaw * 1024| = 1024 →
              |s.place.oy * 1024 - optY| < |o.dyRaw * 1024|)
          ∧ o.dx = max (-(o.margins.left : Int)) (min (o.margins.right : Int) o.dxRaw)
          ∧ o.dy = max (-(o.margins.up : Int)) (min (o.margins.down : Int) o.dyRaw)
          ∧ o.clampedX = (o.dx != o.dxRaw) ∧ o.clampedY = (o.dy != o.dyRaw)
          ∧ (o.clampedX = false → 2 * |optX + o.dx * 1024 - s.place.ox * 1024| ≤ 1024)
          ∧ (o.clampedY = false → 2 * |optY + o.dy * 1024 - s.place.oy * 1024| ≤ 1024)
          ∧ t.place.offTarget
              = if (o.clampedX = true ∨ o.clampedY = true) ∧ s.place.offTarget < 65535 then
                  s.place.offTarget + 1
                else s.place.offTarget)
      ∧ (s.place.settleDue = true → t.sender.has .placeDone = true ∧ t.place.settleDue = false
          ∧ t.place.state = if s.place.shortV = false ∧ s.place.shortH = false
              ∧ t.place.frame.clampedX = false ∧ t.place.frame.clampedY = false then .settled else .partly)

/-- An active line (R1): line k of a frame opened within the fixed formats goes into row k of the input slot,
its first W samples from column 0 on, and is counted where it carries at least W; no other sample changes.
Any other line of a present link is only numbered. -/
def Obligations.ActiveLineWritesItsRow : Prop :=
  ∀ (s : State) (samples : List Sample), s.hold.held = false → s.link.present = true →
    let l := s.link
    let r := l.slotRecord l.inputSlot
    (s.startup.part = .ready ∧ r.opened = true ∧ r.size.inFormats = true ∧ l.activeLines < r.size.h →
      ∃ mem, exec (.activeLine samples) s = .next
          { s with
            mem := mem
            link := { l.setSlot l.inputSlot
                { r with counted := r.counted + if r.size.w ≤ samples.length then 1 else 0 } with
              activeLines := l.activeLines + 1 } }
        ∧ (∀ col x, col < r.size.w → samples[col]? = some x → mem.sample l.inputSlot l.activeLines col = x)
        ∧ ∀ slot row col, slot ≠ l.inputSlot ∨ row ≠ l.activeLines ∨ r.size.w ≤ col ∨ samples.length ≤ col →
            mem.sample slot row col = s.mem.sample slot row col)
    ∧ (¬ (s.startup.part = .ready ∧ r.opened = true ∧ r.size.inFormats = true ∧ l.activeLines < r.size.h) →
      exec (.activeLine samples) s = .next { s with link := { l with activeLines := l.activeLines + 1 } })

/-- A message slot (R160, R162, R164): passed over when empty, counted in BAD_CHECK when discarded, and a good
message takes a free envelope, or is dropped with its count and event when none is free. -/
def Obligations.BlankingSlotFillsAnEnvelope : Prop :=
  ∀ (s : State) (words : List Word), s.hold.held = false →
    (s.link.present = false ∨ 0 < s.link.activeLines ∨ 176 ≤ s.link.blankingSlots →
      exec (.blankingSlot words) s = .next s)
    ∧ (s.link.present = true → s.link.activeLines = 0 → s.link.blankingSlots < 176 →
    let l := { s.link with blankingSlots := s.link.blankingSlots + 1 }
    (readSlot words = .empty → exec (.blankingSlot words) s = .next { s with link := l })
    ∧ (readSlot words = .bad → exec (.blankingSlot words) s
        = .next { s with link := { l with badCheck := if s.link.badCheck < 65535 then s.link.badCheck + 1
                                                      else s.link.badCheck } })
    ∧ (∀ e, readSlot words = .good e → s.intake.free = 0 → exec (.blankingSlot words) s
        = .next (State.raise { s with link := l, intake := { s.intake with
            dropped := if s.intake.dropped < 65535 then s.intake.dropped + 1 else s.intake.dropped } } .dropped))
    ∧ (∀ e, readSlot words = .good e → s.intake.free ≠ 0 → s.intake.slot = none → s.intake.queued = 0 →
        exec (.blankingSlot words) s = .next { s with link := l, intake := { s.intake with
          free := s.intake.free - 1, slot := some e } })
    ∧ (∀ e x, readSlot words = .good e → s.intake.free ≠ 0 → s.intake.slot = some x →
        exec (.blankingSlot words) s = .next { s with link := l, intake := { s.intake with
          free := s.intake.free - 1
          urgent := s.intake.urgent ++ if classOf e.kind = .urgent then [e] else []
          motion := s.intake.motion ++ if classOf e.kind = .motion then [e] else []
          setup := s.intake.setup ++ if classOf e.kind = .setup then [e] else [] } }))

/-- A message written as spec 10.8 lays it out is read back whole, whatever follows it in its slot; a slot of
kind 0 is empty, one whose length is above 62 or whose check word differs is discarded (R162). -/
def Obligations.SlotWordsAreReadBack : Prop :=
  (∀ (e : Envelope) (rest : List Word), e.kind ≠ 0#8 → e.payload.length ≤ 62 →
    readSlot (slotWords e ++ rest) = .good e)
  ∧ (∀ (e : Envelope) (check : Word) (rest : List Word), e.kind ≠ 0#8 → e.payload.length ≤ 62 →
      let body := wordOf e.kind e.tag :: wordOf e.flags (BitVec.ofNat 8 e.payload.length) :: e.payload
      check ≠ checkWord body → readSlot (body ++ check :: rest) = .bad)
  ∧ (∀ (kind tag flags len : Byte) (rest : List Word), kind ≠ 0#8 → 62 < len.toNat →
      readSlot (wordOf kind tag :: wordOf flags len :: rest) = .bad)
  ∧ ∀ (tag : Byte) (rest : List Word), readSlot (wordOf 0#8 tag :: rest) = .empty

/-- The check word is a CRC: the register fed with its own value stands at 0, so the check of a message
together with its check word is 0 (R163). -/
def Obligations.CheckWordClosesToZero : Prop :=
  ∀ ws : List Word, checkWord (ws ++ [checkWord ws]) = 0#16

/-- The loss timer's expiry (R161): ABSENT, the timer stopped, LINK_LOST set, LINK_LOSS pending, D at 0, LINK
muting the frame in flight, and the slot being written not complete. -/
def Obligations.LinkLossTakesEffectAtOnce : Prop :=
  ∀ s : State, s.hold.held = false → s.link.timerRunning = true →
    ∃ t, exec .linkLossTimeout s = .next t
      ∧ t.link = { s.link.setSlot s.link.inputSlot
            { s.link.slotRecord s.link.inputSlot with complete := false, spoiled := true } with
          present := false, timerRunning := false }
      ∧ t.sender.has .linkLost = true ∧ t.prot.pending.get .linkLoss = true
      ∧ t.light.d = 0 ∧ t.light.b = s.light.b ∧ t.picture.mutes.link = true
      ∧ (∀ f, t.picture.frame = some f → f.black = true)
      ∧ t.startup = s.startup ∧ t.intake = s.intake ∧ t.table = s.table ∧ t.gen = s.gen ∧ t.mem = s.mem
      ∧ t.sensors = s.sensors ∧ t.pins = s.pins ∧ t.hold = s.hold ∧ t.pending = s.pending

/-- An output line (R4, R5, R15, R20): the next row is sent, with the frame's start and its parity on row 0, black
throughout while a mute cause has been in force for the frame, and its luminance is summed. -/
def Obligations.OutputLineSendsTheNextRow : Prop :=
  ∀ (s : State) (f : OutFrame), s.hold.held = false → s.picture.frame = some f → f.nextRow < 2160 →
    ∃ pixels : List Sample, pixels.length = 3840
      ∧ (∀ x, x < 3840 → pixels[x]? = some (if f.black then blackSample
          else f.openPixel (s.table.bank f.bank) s.mem x f.nextRow))
      ∧ exec .outputLine s = .next { s with picture := { s.picture with
          frame := some { f with nextRow := f.nextRow + 1
                                 sum := f.sum + (pixels.map fun p =>
                                   (2 * p.r.toNat + 5 * p.g.toNat + p.b.toNat) / 8).sum }
          panelOut := some { row := f.nextRow
                             start := if f.nextRow = 0 then some f.parity else none
                             pixels := pixels } } }

/-- The output frame's end (R5, R21, R123): the light fraction is stored and divides the heat of D; a frame with
lines still to send sends them first (that the end sends them is the model's choice, assumption 9). -/
def Obligations.FrameEndDeliversTheLightFraction : Prop :=
  ∀ (s : State) (f : OutFrame), s.hold.held = false → s.picture.frame = some f →
    (f.nextRow = 2160 →
      let l := (f.sum * 1000 + 4242585600) / 8485171200
      exec .outputFrameEnd s = .next { s with
        picture := { s.picture with frame := none, lastLight := l }
        light := { s.light with
          split := ⟨s.light.d, s.light.d * l / 1000, s.light.d - s.light.d * l / 1000⟩
          accN := s.light.accN + 1
          accSum := ⟨s.light.accSum.laser + s.light.d, s.light.accSum.lens + s.light.d * l / 1000,
            s.light.accSum.dump + (s.light.d - s.light.d * l / 1000)⟩ } })
    ∧ (f.nextRow < 2160 → ∃ t, exec .outputLine s = .next t ∧ exec .outputFrameEnd s = exec .outputFrameEnd t)

/-- The coordinate chain (R6 to R9): outside the panel after the offset, in MUTE, and without a read slot in
IDENTITY, the pixel is black; IDENTITY takes the sample itself; a DARK record and a column outside the lit
span are black; and where R9 admits the source position, TABLE samples the read slot there and GRID the
internal grid (R10, R11). A record of a kind that is neither LIT nor DARK is black too, which is the model's
choice (assumption 32). -/
def Obligations.CoordinateChainFollowsTheRecord : Prop :=
  ∀ (f : OutFrame) (b : Bank) (m : FrameMemory) (x y : Nat),
    let xm : Int := (if f.orientation = .floor then (x : Int) else 3839 - x) - f.dx
    let ym : Int := (if f.orientation = .floor then (y : Int) else 2159 - y) - f.dy
    let inside := 0 ≤ xm ∧ xm ≤ 3839 ∧ 0 ≤ ym ∧ ym ≤ 2159
    let r := bankRecord b ym.toNat
    let u := r.u0 + (xm - r.xLeft) * r.du
    let v := r.v0 + (xm - r.xLeft) * r.dv
    (¬ inside → f.openPixel b m x y = blackSample)
    ∧ (f.mode = .mute → f.openPixel b m x y = blackSample)
    ∧ (inside → f.mode = .identity →
        f.openPixel b m x y = match f.read with
          | some (slot, z) => if xm < z.w ∧ ym < z.h then m.sample slot ym.toNat xm.toNat else blackSample
          | none => blackSample)
    ∧ (inside → f.mode = .table ∨ f.mode = .grid →
        (r.kind ≠ 1 ∨ xm < r.xLeft ∨ r.xRight ≤ xm ∨ u < 0 ∨ v < 0 ∨ ((b.size.w : Int) - 1) * 65536 < u
          ∨ ((b.size.h : Int) - 1) * 65536 < v → f.openPixel b m x y = blackSample)
        ∧ (r.kind = 1 → (r.xLeft : Int) ≤ xm → xm < r.xRight → 0 ≤ u → 0 ≤ v →
            u ≤ ((b.size.w : Int) - 1) * 65536 → v ≤ ((b.size.h : Int) - 1) * 65536 →
            f.openPixel b m x y = sampleAt (if f.mode = .table then f.source m else gridSample b.size)
              b.size u.toNat v.toNat))

/-- The two weighted stages keep a component within 0..1023, so no bit of it is lost in the pixel; where the
four neighbours of the source position agree the pixel is their value; and a whole position takes its sample
(R10). -/
def Obligations.SamplingStaysInTenBits : Prop :=
  ∀ (p : Nat → Nat → Nat) (z : Size) (u v : Nat), (∀ r c, p r c ≤ 1023) →
    let iu := u / 65536
    let iv := v / 65536
    let iu1 := min (iu + 1) (z.w - 1)
    let iv1 := min (iv + 1) (z.h - 1)
    sampleComponent p z u v ≤ 1023
    ∧ (∀ x, p iv iu = x → p iv iu1 = x → p iv1 iu = x → p iv1 iu1 = x → sampleComponent p z u v = x)
    ∧ (u % 65536 = 0 → v % 65536 = 0 → sampleComponent p z u v = p (v / 65536) (u / 65536))

/-! ### The return lane and the executor -/

/-- A send opportunity (R168, R169, R171): nothing with the ready line low; else a QUEUED notice with the flags
as they stand; else the next part of the reply at the head, whose last part frees its envelope. -/
def Obligations.SendOpportunityPrefersTheNotice : Prop :=
  ∀ s : State, s.hold.held = false →
    exec (.sendOpportunity false) s = .next { s with sender := { s.sender with laneOut := none } }
    ∧ (s.sender.notice = .queued → exec (.sendOpportunity true) s = .next { s with sender := { s.sender with
        notice := .sent
        laneOut := some (laneMessage 2 0#8 0#8 false 0 0 0
          [s.sender.flags.extractLsb' 0 16, s.sender.flags.extractLsb' 16 16]) } })
    ∧ (s.sender.notice ≠ .queued → s.intake.replies = [] →
        exec (.sendOpportunity true) s = .next { s with sender := { s.sender with laneOut := none } })
    ∧ (∀ r rest, s.sender.notice ≠ .queued → s.intake.replies = r :: rest →
        let items := r.outcome.words
        let more := decide (62 * (r.sent + 1) < items.length)
        exec (.sendOpportunity true) s = .next { s with
          sender := { s.sender with laneOut := some (laneMessage 1 r.tag r.kind more r.outcome.code
            r.outcome.reason r.sent ((items.drop (62 * r.sent)).take 62)) }
          intake := if more then { s.intake with replies := { r with sent := r.sent + 1 } :: rest }
            else { s.intake with replies := rest, free := s.intake.free + 1 } })

/-- The parts of a reply, joined, are its items; every part but the last carries 62 words and is marked MORE
(R169). -/
def Obligations.ReplyPartsCarryAllItems : Prop :=
  ∀ (r : Reply) (last : Nat), r.more last = false → (∀ n, n < last → r.more n = true) →
    (List.range (last + 1)).flatMap r.part = r.outcome.words
    ∧ (∀ n, n < last → (r.part n).length = 62) ∧ (r.part last).length ≤ 62

/-- The end of an execution (R166, R167): the envelope returns to the pool on DONE without REPLY_ON_DONE, else
joins the tail of the reply queue; then the head of URGENT, else of MOTION, else of SETUP is taken. -/
def Obligations.ExecutionEndsInReplyOrPool : Prop :=
  ∀ (i : Intake) (e : Envelope) (o : MsgOutcome),
    let j := i.finish e o
    (o = .done ∧ e.replyOnDone = false → j.free = i.free + 1 ∧ j.replies = i.replies)
    ∧ (¬ (o = .done ∧ e.replyOnDone = false) →
        j.free = i.free ∧ j.replies = i.replies ++ [⟨e.kind, e.tag, o, 0⟩])
    ∧ j.dropped = i.dropped
    ∧ (∀ x rest, i.urgent = x :: rest →
        j.slot = some x ∧ j.urgent = rest ∧ j.motion = i.motion ∧ j.setup = i.setup)
    ∧ (∀ x rest, i.urgent = [] → i.motion = x :: rest →
        j.slot = some x ∧ j.urgent = [] ∧ j.motion = rest ∧ j.setup = i.setup)
    ∧ (∀ x rest, i.urgent = [] → i.motion = [] → i.setup = x :: rest →
        j.slot = some x ∧ j.urgent = [] ∧ j.motion = [] ∧ j.setup = rest)
    ∧ (i.queued = 0 → j.slot = none ∧ j.queued = 0)

/-- A message of an unassigned kind is refused UNKNOWN in every part state, whatever its payload (R165). -/
def Obligations.UnknownKindIsRefused : Prop :=
  ∀ (s : State) (e : Envelope) (kind : Byte) (p : List Word), s.Executes e kind p → kind ∉ assignedKinds →
    exec .unknownKind s = .next (s.ended e (.refused .unknown))

/-- EVENT_ACK clears exactly the flags it names and re-arms the notice; EVENT_MASK replaces the mask, and a
notice already SENT stays SENT; another length is refused BAD_FIELD (R171 to R173). That EVENT_MASK passes over
the bits that name no flag, as R172 says of EVENT_ACK, is the model's reading (assumption 26). -/
def Obligations.AcknowledgeAndMask : Prop :=
  ∀ (s : State) (e : Envelope) (p : List Word),
    (∀ x y : Word, p = [x, y] →
      let named : BitVec 32 := (y ++ x : BitVec 32) &&& 0x3FFF7FFF#32
      (s.Executes e 0x05#8 p →
        let flags := s.sender.flags &&& ~~~ named
        exec .eventAck s = .next (State.ended { s with sender := { s.sender with
          flags := flags
          notice := if flags &&& s.sender.mask = 0#32 then .none else .queued } } e .done))
      ∧ (s.Executes e 0x60#8 p →
        exec .eventMask s = .next (State.ended { s with sender := { s.sender with
          mask := named
          notice := if s.sender.notice = .sent then .sent
            else if s.sender.flags &&& named = 0#32 then .none else .queued } } e .done)))
    ∧ (p.length ≠ 2 →
      (s.Executes e 0x05#8 p → exec .eventAck s = .next (s.ended e (.refused .badField)))
      ∧ (s.Executes e 0x60#8 p → exec .eventMask s = .next (s.ended e (.refused .badField))))

/-- Flags are sticky: no command but EVENT_ACK and the resets clears one (R170). -/
def Obligations.FlagsAreSticky : Prop :=
  ∀ (c : Instr) (s t : State), exec c s = .next t → c ≠ .eventAck → c ≠ .softReset → c ≠ .powerOnReset →
    c ≠ .supplyDipReset → (∀ i, c ≠ .heldInReset i) →
    ∀ x : EventFlag, s.sender.has x = true → t.sender.has x = true

/-- The messages of R179's table that need the part out of STARTING are refused NOT_READY in it, and change
nothing else. -/
def Obligations.StartingRefusesTheLens : Prop :=
  ∀ (s : State) (e : Envelope) (c : Instr) (kind : Byte) (p : List Word),
    (c, kind) ∈ [(Instr.pictureMode, 0x20#8), (.install, 0x18#8), (.tableOpen, 0x21#8), (.tableRun, 0x22#8),
      (.tableCommit, 0x23#8), (.corners, 0x24#8), (.move, 0x10#8), (.returnMove, 0x13#8), (.stop, 0x01#8),
      (.hold, 0x11#8), (.resume, 0x12#8), (.lock, 0x02#8), (.unlock, 0x14#8), (.home, 0x15#8),
      (.lensCal, 0x30#8), (.profile, 0x31#8), (.place, 0x16#8), (.placeCancel, 0x17#8),
      (.focusTable, 0x32#8), (.focusUpkeep, 0x33#8)] →
    s.Executes e kind p → s.startup.part = .starting →
    exec c s = .next (s.ended e (.refused .notReady))

/-- A QUERY that only reports: its reply carries the items of its owner's rule and nothing changes (R174, and
the contents list of each owner). A QUERY of another length than two words, or of an item code above 10, is
refused BAD_FIELD (that every QUERY row ends it so is the model's choice, assumption 2). -/
def Obligations.QueryReportsAndChangesNothing : Prop :=
  ∀ (s : State) (e : Envelope),
    (∀ a, s.Executes e 0x61#8 [0#16, axisWord a] →
      exec .queryAxis s = .next (s.ended e (.data (axisItems s a))))
    ∧ (∀ x : Word, 2 < x.toNat → s.Executes e 0x61#8 [0#16, x] →
      exec .queryAxis s = .next (s.ended e (.refused .badField)))
    ∧ (∀ (c : Instr) (item : Word) (items : List Word),
        (c, item, items) ∈ [(Instr.queryPlacement, 1#16, placementItems s), (.querySensors, 2#16, sensorsItems s),
          (.queryFans, 3#16, fansItems s), (.queryLight, 4#16, lightItems s),
          (.queryProtection, 5#16, protectionItems s), (.queryEvents, 6#16, eventsItems s),
          (.queryTable, 8#16, tableItems s), (.queryPicture, 10#16, pictureItems s)] →
        (s.Executes e 0x61#8 [item, 0#16] → exec c s = .next (s.ended e (.data items)))
        ∧ (∀ x, x ≠ 0#16 → s.Executes e 0x61#8 [item, x] → exec c s = .next (s.ended e (.refused .badField))))
    ∧ ∀ (c : Instr) (p : List Word),
        c ∈ [Instr.queryAxis, .queryPlacement, .querySensors, .queryFans, .queryLight, .queryProtection,
          .queryEvents, .queryCounters, .queryTable, .queryCause, .queryPicture] →
        (p.length ≠ 2 ∨ ∃ code x : Word, p = [code, x] ∧ 10 < code.toNat) → s.Executes e 0x61#8 p →
        exec c s = .next (s.ended e (.refused .badField))

/-- QUERY COUNTERS and QUERY CAUSE write their values first, and with parameter 1 then clear the three counters,
or acknowledge the cause; COUNTERS accounts for all envelopes with the QUERY's own (R175, R180). -/
def Obligations.CountersAndCauseClearOnRequest : Prop :=
  ∀ (s : State) (e : Envelope) (x : Word),
    (s.Executes e 0x61#8 [7#16, x] →
      let items := [natWord s.link.badCheck, natWord s.intake.dropped, natWord s.place.offTarget,
        natWord s.intake.free, natWord s.intake.urgent.length, natWord s.intake.motion.length,
        natWord s.intake.setup.length, natWord s.intake.replies.length]
      (x = 0#16 → exec .queryCounters s = .next (s.ended e (.data items)))
      ∧ (x = 1#16 → exec .queryCounters s = .next (State.ended { s with
          link := { s.link with badCheck := 0 }, intake := { s.intake with dropped := 0 }
          place := { s.place with offTarget := 0 } } e (.data items)))
      ∧ (1 < x.toNat → exec .queryCounters s = .next (s.ended e (.refused .badField)))
      ∧ (s.intake.Sound → s.intake.free + s.intake.queued + s.intake.replies.length + 1 = 32))
    ∧ (s.Executes e 0x61#8 [9#16, x] →
      let items := [natWord (partCode s.startup.part), natWord (checkCode s.startup.check),
        natWord (causeCode s.startup.cause)]
      (x = 0#16 → exec .queryCause s = .next (s.ended e (.data items)))
      ∧ (x = 1#16 → exec .queryCause s
          = .next (State.ended { s with startup := { s.startup with cause := .none } } e (.data items)))
      ∧ (1 < x.toNat → exec .queryCause s = .next (s.ended e (.refused .badField))))

/-! ### Protection -/

/-- Making a source pending (R148, R150): its flag and SOURCE_PENDING are set; C rises to the highest level that
a pending source asks for, names the lowest-numbered source of that level, sets LEVEL_CHANGED and delivers;
with no source above C nothing is delivered; and a source already pending changes nothing. -/
def Obligations.PendingSourceRaisesTheLevel : Prop :=
  ∀ (s : State) (x : Source),
    let t := s.makePending x
    (s.prot.pending.get x = true → t = s)
    ∧ (s.prot.pending.get x = false →
      (∀ y, t.prot.pending.get y = (s.prot.pending.get y || y == x))
      ∧ t.prot.levels = s.prot.levels ∧ t.prot.table = s.prot.table
      ∧ t.sender.has .sourcePending = true
      ∧ ((∀ y, t.prot.pending.get y = true → t.prot.levels.get y ≤ s.prot.c) →
          t = State.raise { s with prot := { s.prot with pending := s.prot.pending.set x true } } .sourcePending)
      ∧ ((∃ y, t.prot.pending.get y = true ∧ s.prot.c < t.prot.levels.get y) →
          s.prot.c < t.prot.c ∧ (∀ y, t.prot.pending.get y = true → t.prot.levels.get y ≤ t.prot.c)
          ∧ t.sender.has .levelChanged = true ∧ t.ActionsInForce
          ∧ ∃ y, t.prot.cause = .source y ∧ t.prot.pending.get y = true ∧ t.prot.levels.get y = t.prot.c
              ∧ ∀ z, sourceNumber z < sourceNumber y → t.prot.pending.get z = true →
                  t.prot.levels.get z ≠ t.prot.c))

/-- A delivery acts at once at every consumer (R16, R75, R120, R141, R153): D is cut to the limit and not raised,
a fan below the floor is raised or started, PROT mutes the rest of the frame in flight, and the lens lock is
set or cleared on all three axes. A lock set on an axis that was free of both locks ends what the axis does, by
the table of R75 (what an axis that stands leaves is said in EndsOfMovesAreTold); on an axis that was locked, IDLE,
UNHOMED or in FAULT only the lock is set. That a homing sequence already decelerating goes on with its first reason is
the model's choice (assumption 23). -/
def Obligations.DeliveryActsAtOnce : Prop :=
  ∀ s : State,
    let a := s.prot.table.actions s.prot.c
    let t := s.deliver
    t.light = { s.light with limit := a.limit, d := min s.light.d a.limit }
    ∧ t.fans.floor = a.floor ∧ t.fans.capLifted = a.capLifted ∧ t.fans.quiet = s.fans.quiet
    ∧ (∀ x, t.fan x = if a.floor ≤ (s.fan x).duty then s.fan x else match (s.fan x).state with
        | .stopped => { s.fan x with state := .spinup, duty := 1000, spin := 0 }
        | .running => { s.fan x with duty := a.floor }
        | .stalled => { s.fan x with duty := a.floor }
        | .spinup => s.fan x)
    ∧ t.picture = { s.picture with
        mutes := { s.picture.mutes with prot := a.mute }
        frame := if a.mute then s.picture.frame.map fun f => { f with black := true } else s.picture.frame }
    ∧ (∀ x, (t.axis x).protLock = a.lensLock ∧ (t.axis x).hostLock = (s.axis x).hostLock
        ∧ (t.axis x).cal = (s.axis x).cal)
    ∧ (let delivered := { s with light := t.light, fans := t.fans, picture := t.picture }
       let locked := fun (r : State) (x : Axis) =>
         let u := r.axis x
         let q := r.setAxis x { u with protLock := true }
         if u.hostLock = true ∨ u.protLock = true then q else match u.phase with
           | .moving m => if m.lastIndex = 0 then q.standIdle x .locked m
               else q.setPhase x (.stopping m (.idle .locked) m.lastIndex)
           | .stopping m .holding left => q.setPhase x (.stopping m (.idle .locked) left)
           | .stopping m (.retarget _) left => q.setPhase x (.stopping m (.idle .locked) left)
           | .holding m => q.standIdle x .locked m
           | .homing run => match run.halt with
               | some _ => q
               | none => if run.lastIndex = 0 then q.standUnhomed x .locked
                   else q.setPhase x (.homing { run with halt := some (.locked, run.lastIndex) })
           | .stopping _ (.idle _) _ | .idle | .unhomed | .fault => q
       (a.lensLock = true → t = locked (locked (locked delivered .v) .h) .f)
       ∧ (a.lensLock = false → t = { delivered with lens := { s.lens with axes :=
            ⟨{ s.axis .v with protLock := false }, { s.axis .h with protLock := false },
              { s.axis .f with protLock := false }⟩ } }))
    ∧ t.prot = s.prot ∧ t.startup = s.startup ∧ t.link = s.link ∧ t.intake = s.intake ∧ t.table = s.table
    ∧ t.gen = s.gen ∧ t.mem = s.mem ∧ t.sensors = s.sensors

/-- LEVELS, ACTIONS and CLEAR (R149, R152, R154): the levels are replaced and an acceptance made; a monotone
table is replaced whole, and delivered where C is 1, 2 or 3; a source is cleared unless its persisting
condition, written out from the table of R155, holds; any other payload is refused BAD_FIELD. -/
def Obligations.LevelsActionsAndClear : Prop :=
  ∀ (s : State) (e : Envelope) (p : List Word),
    (s.Executes e 0x50#8 p →
      (∀ levels : PerSource Nat, (∀ x, levels.get x ≤ 3) →
        p = (allSources.drop 1).map (fun x => BitVec.ofNat 16 (levels.get x)) →
        exec .levels s = .next ((State.accept { s with prot := { s.prot with
          levels := levels.set .trip s.prot.levels.trip } }).ended e .done))
      ∧ (p.length ≠ 11 ∨ (∃ w ∈ p, 3 < w.toNat) → exec .levels s = .next (s.ended e (.refused .badField))))
    ∧ (s.Executes e 0x51#8 p →
      let words := fun (table : ActionTable) => [table.level1, table.level2, table.level3].flatMap fun a =>
        [BitVec.ofNat 16 a.limit, BitVec.ofNat 16 a.floor, flagWord a.capLifted, flagWord a.lensLock,
          flagWord a.mute]
      (∀ table : ActionTable, table.Sound → p = words table → exec .actions s = .next (State.ended
        (let t := { s with prot := { s.prot with table := table } }
         if s.prot.c = 1 ∨ s.prot.c = 2 ∨ s.prot.c = 3 then t.deliver else t) e .done))
      ∧ ((∀ table : ActionTable, table.Sound → p ≠ words table) →
        exec .actions s = .next (s.ended e (.refused .badField))))
    ∧ (s.Executes e 0x03#8 p →
      let persists : Source → Prop := fun x => match x with
        | .trip => ∃ i r, (s.sensor i).reading = some r ∧ (s.sensor i).fault = false ∧ ((s.sensor i).trip : Int) ≤ r
        | .tempLaser => (s.sensor .laser).high = true
        | .tempPanel => (s.sensor .panel).high = true
        | .tempDump => (s.sensor .dump).high = true
        | .tempLens => (s.sensor .lens).high = true
        | .sensorFault => ∃ i, (s.sensor i).fault = true
        | .stallIntake => (s.fan .intake).state = .stalled
        | .stallLight => (s.fan .light).state = .stalled
        | .stallExhaust => (s.fan .exhaust).state = .stalled
        | .linkLoss => s.link.present = false
        | .lensFault | .memoryFault => False
      (∀ x : Source, p = [BitVec.ofNat 16 (sourceNumber x)] →
        (persists x → exec .clear s = .next (s.ended e .done))
        ∧ (¬ persists x → exec .clear s = .next (State.ended
            { s with prot := { s.prot with pending := s.prot.pending.set x false } } e .done)))
      ∧ ((∀ x : Source, p ≠ [BitVec.ofNat 16 (sourceNumber x)]) →
        exec .clear s = .next (s.ended e (.refused .badField))))

/-- LOWER (R156, R157): refused at a target not below C, and at level 4 while a sensor meets the release
condition; else C is the highest of the target and the pending sources' levels, with LEVEL_CHANGED and one
delivery where that is below the old C, and no change where it is not. -/
def Obligations.LowerStopsAtPendingSources : Prop :=
  ∀ (s : State) (e : Envelope),
    (∀ p, p.length ≠ 1 → s.Executes e 0x04#8 p → exec .lower s = .next (s.ended e (.refused .badField)))
    ∧ ∀ w : Word, s.Executes e 0x04#8 [w] →
    let open_ := s.prot.c ≠ 4 ∨ ∀ x r, (s.sensor x).reading = some r → r < ((s.sensor x).trip : Int) - 40
    (s.prot.c ≤ w.toNat → exec .lower s = .next (s.ended e (.refused .badField)))
    ∧ (w.toNat < s.prot.c → ¬ open_ → exec .lower s = .next (s.ended e (.refused .badState)))
    ∧ (w.toNat < s.prot.c → open_ →
        ((∃ x, s.prot.pending.get x = true ∧ s.prot.levels.get x = s.prot.c) → s.prot.Sound →
          exec .lower s = .next (s.ended e .done))
        ∧ ((∀ x, s.prot.pending.get x = true → s.prot.levels.get x ≤ w.toNat) →
          exec .lower s = .next (State.ended (State.deliver (State.raise { s with prot := { s.prot with
            c := w.toNat, cause := if w.toNat = 0 then .none else .host } } .levelChanged)) e .done))
        ∧ (∀ x, s.prot.pending.get x = true → w.toNat < s.prot.levels.get x →
            s.prot.levels.get x < s.prot.c →
            (∀ y, s.prot.pending.get y = true → s.prot.levels.get y ≤ s.prot.levels.get x) →
            (∀ y, sourceNumber y < sourceNumber x → s.prot.pending.get y = true →
              s.prot.levels.get y ≠ s.prot.levels.get x) →
            exec .lower s = .next (State.ended (State.deliver (State.raise { s with prot := { s.prot with
              c := s.prot.levels.get x, cause := .source x } } .levelChanged)) e .done)))

/-! ### Sensors, light and fans -/

/-- The settings taken in every part state (R110, R111, R117, R143, R144, R145): each stores its value, SENSOR_SET
as pending settings, with CLAMPED and the value as taken where the rule clamps; a message of another length
is refused BAD_FIELD. -/
def Obligations.ThermalSettingsAreStored : Prop :=
  ∀ (s : State) (e : Envelope) (p : List Word),
    (∀ w : Word, p = [w] → s.Executes e 0x42#8 p → exec .brightness s = .next (State.ended
      { s with light := { s.light with b := min w.toNat 1000 } } e
      (if 1000 < w.toNat then .clamped 1000#16 else .done)))
    ∧ (∀ w : Word, p = [w] → s.Executes e 0x45#8 p →
      (∀ on, w = flagWord on → exec .quiet s
        = .next (State.ended { s with fans := { s.fans with quiet := on } } e .done))
      ∧ (1 < w.toNat → exec .quiet s = .next (s.ended e (.refused .badField))))
    ∧ (∀ ts : List Int, ts.length = 16 → (∀ x ∈ ts, -160 ≤ x ∧ x ≤ 600) → p = ts.map (BitVec.ofInt 16) →
      s.Executes e 0x41#8 p →
      (rising ts = true → exec .thresholds s
        = .next (State.ended { s with sensors := { s.sensors with criteria := ts } } e .done))
      ∧ (rising ts = false → exec .thresholds s = .next (s.ended e (.refused .badField))))
    ∧ (∀ (x : Sensor) (window index trip : Word), p = [sensorWord x, window, index, trip] →
      s.Executes e 0x40#8 p →
      (index.toNat ≤ 15 → trip.toNat ≤ 600 → exec .sensorSet s = .next (State.ended
        (s.setSensor x { s.sensor x with
          pend := some ⟨max 10 (min window.toNat 250), index.toNat, trip.toNat⟩ }) e
        (if window.toNat < 10 then .clamped 10#16 else if 250 < window.toNat then .clamped 250#16 else .done)))
      ∧ (15 < index.toNat ∨ 600 < trip.toNat →
        exec .sensorSet s = .next (s.ended e (.refused .badField))))
    ∧ (∀ (x : Fan) (o : Orientation) (t : List Breakpoint), t.length = 6 →
      (∀ b ∈ t, -160 ≤ b.t ∧ b.t ≤ 600 ∧ 0 ≤ b.value ∧ b.value ≤ 1000) →
      p = fanWord x :: BitVec.ofNat 16 (orientationCode o)
        :: t.flatMap (fun b => [BitVec.ofInt 16 b.t, BitVec.ofInt 16 b.value]) → s.Executes e 0x43#8 p →
      (rising (t.map (·.t)) = true ∧ nonFalling (t.map (·.value)) = true → exec .fanCurve s = .next (State.ended
        (s.setFan x { s.fan x with record :=
          { (s.fan x).record with
            floorSet := if o = .floor then t else (s.fan x).record.floorSet
            ceilingSet := if o = .ceiling then t else (s.fan x).record.ceilingSet } }) e .done))
      ∧ (¬ (rising (t.map (·.t)) = true ∧ nonFalling (t.map (·.value)) = true) →
        exec .fanCurve s = .next (s.ended e (.refused .badField))))
    ∧ (∀ (x : Fan) (i : Sensor) (z : Zone) (gain cap stall : Word),
      p = [fanWord x, sensorWord i, BitVec.ofNat 16 (zoneCode z), gain, cap, stall] → s.Executes e 0x44#8 p →
      (gain.toNat ≤ 1000 → cap.toNat ≤ 1000 → stall.toNat ≤ 20000 → exec .fanLimits s = .next (State.ended
        (s.setFan x { s.fan x with record :=
          { (s.fan x).record with
            sensor := i, zone := z, gain := gain.toNat, quietCap := max cap.toNat 200
            stallSpeed := stall.toNat } }) e
        (if cap.toNat < 200 then .clamped 200#16 else .done)))
      ∧ (1000 < gain.toNat ∨ 1000 < cap.toNat ∨ 20000 < stall.toNat →
        exec .fanLimits s = .next (s.ended e (.refused .badField))))
    ∧ ∀ (c : Instr) (kind : Byte) (n : Nat),
        (c, kind, n) ∈ [(Instr.brightness, 0x42#8, 1), (.quiet, 0x45#8, 1), (.thresholds, 0x41#8, 16),
          (.sensorSet, 0x40#8, 4), (.fanCurve, 0x43#8, 14), (.fanLimits, 0x44#8, 6)] →
        p.length ≠ n → s.Executes e kind p → exec c s = .next (s.ended e (.refused .badField))

/-- A window end (R103 to R109): a good sample clears the fault flag, filters the reading, judges the comparator
against the old settings and makes its sources pending; a faulted one keeps reading and comparator and makes
SENSOR_FAULT pending; then the next window applies the pending settings. The LENS reading is handed to focus
upkeep, which looks up the desired compensation and, where the conditions of R99 hold, starts an upkeep move
toward base plus desired with profile 0, or finds the driver fault of F asserted at its beginning (stated where the
window end itself makes no source pending). -/
def Obligations.WindowEndJudgesTheSample : Prop :=
  ∀ (s : State) (x : Sensor) (raw : Word), s.hold.held = false →
    let v := raw.toInt
    let u := s.sensor x
    let threshold := s.sensors.criteria.getD u.index 0
    let next : SensorSettings := u.pend.getD ⟨u.window, u.index, u.trip⟩
    ∃ t, exec (.windowEnd x raw) s = .next t
      ∧ (∀ y, y ≠ x → t.sensor y = s.sensor y) ∧ t.sensors.criteria = s.sensors.criteria
      ∧ (-160 ≤ v ∧ v ≤ 600 →
          let r := match u.reading with
            | none => v
            | some r0 => r0 + (v - r0 + 4) / 8
          t.sensor x = { window := next.window, index := next.index, trip := next.trip, pend := none
                         raw := some v, reading := some r
                         high := if u.high then decide (threshold - 8 ≤ r) else decide (threshold ≤ r)
                         fault := false }
          ∧ (u.high = false → threshold ≤ r → t.prot.pending.get (tempSource x) = true)
          ∧ ((u.trip : Int) ≤ r → t.prot.pending.get .trip = true)
          ∧ (x = .lens → t.focus.desired = interpolate s.focus.table r)
          ∧ (x ≠ .lens → u.high = true ∨ r < threshold → r < u.trip → t = s.setSensor x (t.sensor x))
          ∧ (x = .lens → u.high = true ∨ r < threshold → r < u.trip →
              let f := s.axis .f
              let d := interpolate s.focus.table r
              let target := (max 0 (min (f.cal.max : Int) (s.focus.base + d))).toNat
              let due := s.focus.upkeep = true ∧ f.phase = .idle ∧ f.hostLock = false ∧ f.protLock = false
                ∧ (∀ a m, (s.axis a).phase.record = some m → m.owner ≠ .placement) ∧ 2 ≤ |d - s.focus.applied|
              let judged := { s.setSensor x (t.sensor x) with focus := { s.focus with desired := d } }
              (¬ due → t = judged)
              ∧ (due → f.pos = target → t = { judged.setAxis .f { f with phase := .idle, lastEnd := .completed } with
                  focus := { s.focus with desired := d, applied := d, record := none } })
              ∧ (due → f.pos ≠ target → (s.pins.get .f).driverFault = false →
                  ∃ leg legs, legsOf f.pos target f.cal.backlash f.cal.max f.cal.approach = leg :: legs
                    ∧ t = { judged.setAxis .f { f with
                        dirOut := leg.dir
                        phase := .moving { target := target, owner := .upkeep, profileNo := 0
                                           profile := s.lens.profiles.getD 0 ⟨300, 300, 0⟩, legs := leg :: legs
                                           current := 1, k := 0, lastIndex := 0, timer := ⟨0, 1⟩ } } with
                      focus := { s.focus with desired := d, record := some d } })
              ∧ (due → f.pos ≠ target → (s.pins.get .f).driverFault = true → judged.FaultedAtLeg t .f)))
      ∧ (v < -160 ∨ 600 < v →
          t.sensor x = { window := next.window, index := next.index, trip := next.trip, pend := none
                         raw := some v, reading := u.reading, high := u.high, fault := true }
          ∧ t.prot.pending.get .sensorFault = true ∧ t.focus.desired = s.focus.desired
          ∧ (s.prot.pending.get .sensorFault = true → t = s.setSensor x (t.sensor x)))
      ∧ t.startup = s.startup ∧ t.link = s.link ∧ t.intake = s.intake ∧ t.table = s.table ∧ t.gen = s.gen
      ∧ t.mem = s.mem ∧ t.pins = s.pins ∧ t.hold = s.hold ∧ t.pending = s.pending

/-- A tachometer pulse counts; a fan update closes the heat period, measures every speed, judges stalls and makes
the STALL source of a fan that turns STALLED pending, composes every demand, and moves states and duties by
the table, the slew starting from the duty before the update (R125, R126, R132 to R140). In the light unit only the
period and its averages change, and D and the limit by a delivery alone. Where no fan turns STALLED and the update is
not the first after a SOFT_RESET, nothing is delivered and nothing beside the fans and that period changes. The first
update after a
SOFT_RESET makes the STALL source of every fan STALLED after the judgement pending again (R131; the bit that
marks this update is the model's, assumption 20). That the frame count alone marks a period as one with frames, a
period in STARTING in which a black frame ended among them, is the model's choice (assumption 37). -/
def Obligations.FanUpdateMovesTheFans : Prop :=
  ∀ s : State, s.hold.held = false →
    (∀ x, exec (.tachPulse x) s = .next (s.setFan x { s.fan x with count := (s.fan x).count + 1 }))
    ∧ ∃ t, exec .fanUpdate s = .next t
      ∧ t.light.avg = (if s.light.accN = 0 then ⟨s.light.d, 0, s.light.d⟩
          else ⟨s.light.accSum.laser / s.light.accN, s.light.accSum.lens / s.light.accN,
            s.light.accSum.dump / s.light.accN⟩)
      ∧ t.light.avgFrames = (s.light.accN != 0) ∧ t.light.accN = 0 ∧ t.light.accSum = ⟨0, 0, 0⟩
      ∧ t.light.b = s.light.b ∧ t.light.split = s.light.split
      ∧ t.fans.curveSet = s.picture.orientation ∧ t.fans.quiet = s.fans.quiet ∧ t.fans.reReport = false
      ∧ (∀ x,
          let u := s.fan x
          let v := t.fan x
          v.history = (u.count :: u.history).take 5 ∧ v.count = 0 ∧ v.record = u.record
          ∧ v.speed = ((u.count :: u.history).take 5).sum * 60
          ∧ v.readingUsed = (s.sensor u.record.sensor).fanReading
          ∧ v.lastCurve = (interpolate (if s.picture.orientation = .floor then u.record.floorSet
              else u.record.ceilingSet) v.readingUsed).toNat
          ∧ v.lastFF = (match u.record.zone with
              | .laser => t.light.avg.laser
              | .dump => t.light.avg.dump
              | .lens => t.light.avg.lens
              | .none => 0) * u.record.gain / 1000
          ∧ (let third := max (max v.lastCurve v.lastFF) t.fans.floor
             let fourth := if s.fans.quiet = true ∧ t.fans.capLifted = false then
               max t.fans.floor (min third u.record.quietCap) else third
             v.lastDemand = if 1 ≤ fourth ∧ fourth ≤ 199 then 200 else fourth)
          ∧ (u.state = .running → v.speed < u.record.stallSpeed → 2 ≤ u.stallRun →
              t.prot.pending.get (stallSource x) = true)
          ∧ (s.fans.reReport = true → u.state = .stalled → v.speed < u.record.stallSpeed ∨ u.recovery < 2 →
              t.prot.pending.get (stallSource x) = true))
      ∧ (s.fans.reReport = false →
          (∀ x, (s.fan x).state = .running → (s.fan x).record.stallSpeed ≤ (t.fan x).speed ∨ (s.fan x).stallRun < 2) →
          t = { s with light := t.light, fans := t.fans } ∧ t.light.d = s.light.d ∧ t.light.limit = s.light.limit
          ∧ t.fans.floor = s.fans.floor ∧ t.fans.capLifted = s.fans.capLifted)
      ∧ (∀ x,
            let u := s.fan x
            let v := t.fan x
            let d := v.lastDemand
            (u.state = .stopped → (d = 0 → v.state = .stopped ∧ v.duty = 0)
              ∧ (d ≠ 0 → v.state = .spinup ∧ v.duty = 1000 ∧ v.spin = 1))
            ∧ (u.state = .spinup → (d = 0 → v.state = .stopped ∧ v.duty = 0 ∧ v.spin = 0)
              ∧ (d ≠ 0 → u.spin < 5 → v.state = .spinup ∧ v.duty = 1000 ∧ v.spin = u.spin + 1)
              ∧ (d ≠ 0 → 5 ≤ u.spin → v.state = .running ∧ v.duty = d ∧ v.spin = 0 ∧ v.stallRun = 0))
            ∧ (u.state = .running ∨ u.state = .stalled →
              (d = 0 → v.state = .stopped ∧ v.duty = 0 ∧ v.stallRun = 0 ∧ v.recovery = 0)
              ∧ (d ≠ 0 → v.duty = max (if u.duty < d then min (u.duty + 50) d
                    else if d < u.duty then max (u.duty - 50) d else u.duty) t.fans.floor
                  ∧ (u.state = .running → u.record.stallSpeed ≤ v.speed → v.state = .running ∧ v.stallRun = 0)
                  ∧ (u.state = .running → v.speed < u.record.stallSpeed → u.stallRun < 2 →
                      v.state = .running ∧ v.stallRun = u.stallRun + 1)
                  ∧ (u.state = .running → v.speed < u.record.stallSpeed → 2 ≤ u.stallRun →
                      v.state = .stalled ∧ v.recovery = 0)
                  ∧ (u.state = .stalled → v.speed < u.record.stallSpeed → v.state = .stalled ∧ v.recovery = 0)
                  ∧ (u.state = .stalled → u.record.stallSpeed ≤ v.speed → u.recovery < 2 →
                      v.state = .stalled ∧ v.recovery = u.recovery + 1)
                  ∧ (u.state = .stalled → u.record.stallSpeed ≤ v.speed → 2 ≤ u.recovery →
                      v.state = .running ∧ v.stallRun = 0))))
      ∧ t.startup = s.startup ∧ t.link = s.link ∧ t.intake = s.intake ∧ t.table = s.table ∧ t.gen = s.gen
      ∧ t.mem = s.mem ∧ t.sensors = s.sensors ∧ t.pins = s.pins ∧ t.hold = s.hold ∧ t.pending = s.pending

/-! ### Settings of the picture and the lens -/

/-- The settings taken out of STARTING (R13, R19, R60, R61, R92, R96, R97): each stores its value, INSTALL only
while no axis moves or homes, LENS_CAL only where the axis stands within the new travel, dropping the ring
entries beyond it; a message of another length, or with a code of no mode, orientation or setting, is refused
BAD_FIELD. -/
def Obligations.ReadySettingsAreStored : Prop :=
  ∀ (s : State) (e : Envelope) (p : List Word), s.startup.part ≠ .starting →
    (∀ m : PictureMode, p = [BitVec.ofNat 16 (modeCode m)] → s.Executes e 0x20#8 p → exec .pictureMode s
      = .next (State.ended { s with picture := { s.picture with mode := m } } e .done))
    ∧ (∀ o : Orientation, p = [BitVec.ofNat 16 (orientationCode o)] → s.Executes e 0x18#8 p →
      ((∀ a, (s.axis a).phase.inMove = false ∧ (s.axis a).phase.isHoming = false) → exec .install s
        = .next (State.ended { s with picture := { s.picture with orientation := o } } e .done))
      ∧ ((∃ a, (s.axis a).phase.inMove = true ∨ (s.axis a).phase.isHoming = true) →
        exec .install s = .next (s.ended e (.refused .busy))))
    ∧ (∀ on : Bool, p = [flagWord on] → s.Executes e 0x33#8 p → exec .focusUpkeep s
      = .next (State.ended { s with focus := { s.focus with upkeep := on } } e .done))
    ∧ (∀ t : List Breakpoint, t.length = 8 →
      (∀ b ∈ t, -160 ≤ b.t ∧ b.t ≤ 600 ∧ -500 ≤ b.value ∧ b.value ≤ 500) →
      p = t.flatMap (fun b => [BitVec.ofInt 16 b.t, BitVec.ofInt 16 b.value]) → s.Executes e 0x32#8 p →
      (rising (t.map (·.t)) = true → exec .focusTable s
        = .next (State.ended { s with focus := { s.focus with table := t } } e .done))
      ∧ (rising (t.map (·.t)) = false → exec .focusTable s = .next (s.ended e (.refused .badField))))
    ∧ (p = [] → s.Executes e 0x17#8 p → exec .placeCancel s = .next (State.ended { s with place :=
      { s.place with state := .none, outV := false, outH := false, shortV := false, shortH := false
                     settleDue := false } } e .done))
    ∧ (∀ n start top ramp : Word, p = [n, start, top, ramp] → s.Executes e 0x31#8 p →
      let ok := n.toNat ≤ 3 ∧ 100 ≤ start.toNat ∧ start.toNat ≤ 2000 ∧ start.toNat ≤ top.toNat
        ∧ top.toNat ≤ 4000 ∧ ramp.toNat ≤ 2000
      (ok →
        let profiles := s.lens.profiles.set n.toNat ⟨start.toNat, top.toNat, ramp.toNat⟩
        exec .profile s = .next (State.ended { s with lens := { s.lens with profiles := profiles } } e .done))
      ∧ (¬ ok → exec .profile s = .next (s.ended e (.refused .badField))))
    ∧ (∀ (a : Axis) (cal : Cal), cal.Sound a → -4096 ≤ cal.pps → cal.pps ≤ 4096 → cal.homingProfile ≤ 3 →
      1 ≤ cal.timeout → cal.timeout ≤ 60 → cal.slipTolerance ≤ 255 →
      p = [axisWord a, BitVec.ofNat 16 cal.max, BitVec.ofNat 16 cal.backlash,
        BitVec.ofNat 16 (dirCode cal.approach), BitVec.ofInt 16 cal.pps, BitVec.ofNat 16 cal.reference,
        BitVec.ofNat 16 cal.homingProfile, BitVec.ofNat 16 cal.timeout, BitVec.ofNat 16 cal.slipTolerance] →
      s.Executes e 0x30#8 p →
      let u := s.axis a
      (u.phase.inMove = true ∨ u.phase.isHoming = true →
        exec .lensCal s = .next (s.ended e (.refused .busy)))
      ∧ (u.phase = .idle → cal.max < u.pos → exec .lensCal s = .next (s.ended e (.refused .badState)))
      ∧ (u.phase = .unhomed ∨ u.phase = .fault ∨ (u.phase = .idle ∧ u.pos ≤ cal.max) →
        exec .lensCal s = .next (State.ended
          (s.setAxis a { u with cal := cal, ring := u.ring.filter (· ≤ cal.max) }) e .done)))
    ∧ ∀ (c : Instr) (kind : Byte) (n : Nat),
        (c, kind, n) ∈ [(Instr.pictureMode, 0x20#8, 1), (.install, 0x18#8, 1), (.focusUpkeep, 0x33#8, 1),
          (.focusTable, 0x32#8, 16), (.placeCancel, 0x17#8, 0), (.profile, 0x31#8, 4), (.lensCal, 0x30#8, 9)] →
        p.length ≠ n ∨ (∃ w : Word, p = [w] ∧ (if c = .pictureMode then 3 else 1) < w.toNat) → s.Executes e kind p →
        exec c s = .next (s.ended e (.refused .badField))

/-! ### Axes -/

/-- STOP, LOCK, UNLOCK, HOLD and RESUME out of STARTING (R71 to R75): each by the state it finds the axis in; a
payload that names no axis is refused BAD_FIELD. Where the deceleration has no step the axis stands at
once. RESUME takes up the rest of the current leg; standing at its end, it begins the next leg, or completes
the move after the last; a driver fault input found asserted at the beginning of the leg brings the axis to FAULT
before any step of it (R79). That a STOP or a LOCK leaves a homing sequence already decelerating with its first reason
is the model's choice (assumption 23). -/
def Obligations.StopLockHoldAndResume : Prop :=
  ∀ (s : State) (e : Envelope) (p : List Word), s.startup.part ≠ .starting →
    (∀ a, p = [axisWord a] →
      let u := s.axis a
      (s.Executes e 0x01#8 p → exec .stop s = .next (State.ended (match u.phase with
        | .moving m => if m.lastIndex = 0 then s.standIdle a .host m
            else s.setPhase a (.stopping m (.idle .host) m.lastIndex)
        | .holding m => s.standIdle a .host m
        | .homing run => match run.halt with
            | some _ => s
            | none => if run.lastIndex = 0 then s.standUnhomed a .host
                else s.setPhase a (.homing { run with halt := some (.host, run.lastIndex) })
        | .idle | .unhomed | .fault | .stopping _ _ _ => s) e .done))
      ∧ (s.Executes e 0x02#8 p →
        let t := s.setAxis a { u with hostLock := true }
        exec .lock s = .next (State.ended (if u.hostLock = true ∨ u.protLock = true then t else match u.phase with
          | .moving m => if m.lastIndex = 0 then t.standIdle a .locked m
              else t.setPhase a (.stopping m (.idle .locked) m.lastIndex)
          | .stopping m .holding left => t.setPhase a (.stopping m (.idle .locked) left)
          | .stopping m (.retarget _) left => t.setPhase a (.stopping m (.idle .locked) left)
          | .holding m => t.standIdle a .locked m
          | .homing run => match run.halt with
              | some _ => t
              | none => if run.lastIndex = 0 then t.standUnhomed a .locked
                  else t.setPhase a (.homing { run with halt := some (.locked, run.lastIndex) })
          | .stopping _ (.idle _) _ | .idle | .unhomed | .fault => t) e .done))
      ∧ (s.Executes e 0x14#8 p →
        exec .unlock s = .next (State.ended (s.setAxis a { u with hostLock := false }) e .done))
      ∧ (s.Executes e 0x11#8 p →
        (∀ m, u.phase = .moving m → exec .hold s = .next (State.ended (s.setPhase a
          (if m.lastIndex = 0 then .holding m else .stopping m .holding m.lastIndex)) e .done))
        ∧ ((∀ m, u.phase ≠ .moving m) → exec .hold s = .next (s.ended e (.refused .badState))))
      ∧ (s.Executes e 0x12#8 p →
        (u.hostLock = true ∨ u.protLock = true → exec .resume s = .next (s.ended e (.refused .locked)))
        ∧ (u.hostLock = false → u.protLock = false → (∀ m, u.phase ≠ .holding m) →
            exec .resume s = .next (s.ended e (.refused .badState)))
        ∧ (∀ m leg, u.hostLock = false → u.protLock = false → u.phase = .holding m → m.leg = some leg →
            (leg.rest u.pos ≠ 0 → (s.pins.get a).driverFault = false → exec .resume s = .next (State.ended
              (s.setAxis a { u with
                dirOut := leg.dir, phase := .moving { m with k := 0, lastIndex := 0, timer := ⟨0, 1⟩ } }) e .done))
            ∧ (leg.rest u.pos ≠ 0 ∨ m.current < m.legs.length → (s.pins.get a).driverFault = true →
              ∃ t, exec .resume s = .next (t.ended e .done) ∧ s.FaultedAtLeg t a)
            ∧ (leg.rest u.pos = 0 → m.current = m.legs.length →
              exec .resume s = .next (State.ended (s.completeMove a m.owner) e .done))
            ∧ (∀ next, leg.rest u.pos = 0 → m.current < m.legs.length → m.legs[m.current]? = some next →
              (s.pins.get a).driverFault = false → exec .resume s = .next (State.ended
                (s.setAxis a { u with
                  dirOut := next.dir
                  phase := .moving { m with current := m.current + 1, k := 0, lastIndex := 0, timer := ⟨0, 1⟩ } })
                e .done)))))
    ∧ ∀ (c : Instr) (kind : Byte),
        (c, kind) ∈ [(Instr.stop, 0x01#8), (.lock, 0x02#8), (.unlock, 0x14#8), (.hold, 0x11#8),
          (.resume, 0x12#8), (.returnMove, 0x13#8)] →
        (∀ a, p ≠ [axisWord a]) → s.Executes e kind p → exec c s = .next (s.ended e (.refused .badField))

/-- The ends of a move (R67, R71, R72, R75, R87, R100): standing at a stop or completing, the axis is IDLE with
the record gone and the last end written; the end is told by owner, a COMMANDED completion by MOVE_DONE and
every stop by STOPPED; a stopped homing sequence leaves the axis UNHOMED with HOME_FAILED. -/
def Obligations.EndsOfMovesAreTold : Prop :=
  ∀ (s : State) (a : Axis) (m : MoveRec) (r : HaltReason) (o : Owner),
    (let t := s.standIdle a r m
     t.axis a = { s.axis a with phase := .idle
                                lastEnd := .stopped (match r with
                                  | .host => .host
                                  | .locked => .locked) }
     ∧ t.sender = s.sender.raise (.stopped a)
     ∧ t.place = (if m.owner = .placement then s.place.moveEnded a true else s.place)
     ∧ t.focus = (if m.owner = .upkeep then { s.focus with record := none } else s.focus))
    ∧ (let t := s.completeMove a o
       t.axis a = { s.axis a with phase := .idle, lastEnd := .completed }
       ∧ t.sender = (if o = .commanded then s.sender.raise (.moveDone a) else s.sender)
       ∧ t.place = (if o = .placement then s.place.moveEnded a false else s.place)
       ∧ t.focus = (if o = .upkeep then { s.focus with
           applied := s.focus.record.getD s.focus.applied, record := none } else s.focus))
    ∧ (let t := s.standUnhomed a r
       (t.axis a).phase = .unhomed ∧ (t.axis a).pos = 0 ∧ (t.axis a).ring = []
       ∧ (t.axis a).lastEnd = .homeFailed (match r with
           | .host => .stopped
           | .locked => .locked)
       ∧ t.sender = s.sender.raise (.homeFailed a))
    ∧ (∀ b, b ≠ a → (s.standIdle a r m).axis b = s.axis b ∧ (s.completeMove a o).axis b = s.axis b
        ∧ (s.standUnhomed a r).axis b = s.axis b)
    ∧ (s.place.state = .tracking → ∀ short,
        (s.place.moveEnded .v short).outV = false ∧ (s.place.moveEnded .h short).outH = false
        ∧ (s.place.moveEnded .v short).shortV = (s.place.shortV || short)
        ∧ (s.place.moveEnded .h short).shortH = (s.place.shortH || short)
        ∧ (s.place.outH = false → (s.place.moveEnded .v short).settleDue = true)
        ∧ (s.place.outV = false → (s.place.moveEnded .h short).settleDue = true))

/-- MOVE and RETURN out of STARTING (R64 to R70, with R79, R93 and R98): the checks in their order; MOVE
clamps its target to the travel and pushes the position it leaves; RETURN pops the newest entry and pushes nothing;
the move begins with the legs of R64 and profile as named (1 for RETURN), or completes at once where the axis stands at the target; a
driver fault input found asserted at the beginning of the first leg brings the axis to FAULT before any step
(R79); a placement ends (R93), and on F the focus base is set (R98); a MOVE payload of another form is refused
BAD_FIELD. -/
def Obligations.MoveAndReturnBeginMoves : Prop :=
  ∀ (s : State) (e : Envelope) (a : Axis), s.startup.part ≠ .starting →
    let u := s.axis a
    let refusal : Option Reason := if u.phase = .unhomed ∨ u.phase = .fault ∨ u.phase.isHoming = true then some .notHomed
      else if u.hostLock = true ∨ u.protLock = true then some .locked
      else if u.phase = .idle then none else some .busy
    let handed := fun (target : Nat) => { s with
      place := if a = Axis.f then s.place else s.place.cancelled
      focus := if a = Axis.f then { s.focus with base := (target : Int) - s.focus.applied } else s.focus }
    let begun := fun (target n : Nat) (ring : List Nat) =>
      let legs := legsOf u.pos target u.cal.backlash u.cal.max (s.approach a)
      (handed target).setAxis a { u with
        ring := ring
        dirOut := (legs.head?.map (·.dir)).getD u.dirOut
        phase := .moving { target := target, owner := .commanded, profileNo := n
                           profile := s.lens.profiles.getD n ⟨300, 300, 0⟩, legs := legs, current := 1
                           k := 0, lastIndex := 0, timer := ⟨0, 1⟩ } }
    let done := fun (target : Nat) (ring : List Nat) =>
      State.raise ((handed target).setAxis a { u with ring := ring, phase := .idle, lastEnd := .completed })
        (.moveDone a)
    (∀ target n : Word, s.Executes e 0x10#8 [axisWord a, target, n] →
      let to_ := min target.toNat u.cal.max
      let outcome := if u.cal.max < target.toNat then MsgOutcome.clamped (BitVec.ofNat 16 u.cal.max) else .done
      (3 < n.toNat → exec .move s = .next (s.ended e (.refused .badField)))
      ∧ (n.toNat ≤ 3 → ∀ r, refusal = some r → exec .move s = .next (s.ended e (.refused r)))
      ∧ (n.toNat ≤ 3 → refusal = none → u.pos ≠ to_ → (s.pins.get a).driverFault = false →
          exec .move s = .next ((begun to_ n.toNat ((u.pos :: u.ring).take 8)).ended e outcome))
      ∧ (n.toNat ≤ 3 → refusal = none → u.pos ≠ to_ → (s.pins.get a).driverFault = true →
          ∃ t, exec .move s = .next (t.ended e outcome) ∧ s.FaultedAtLeg t a)
      ∧ (n.toNat ≤ 3 → refusal = none → u.pos = to_ → exec .move s = .next ((done to_ u.ring).ended e outcome)))
    ∧ (s.Executes e 0x13#8 [axisWord a] →
      (∀ r, refusal = some r → exec .returnMove s = .next (s.ended e (.refused r)))
      ∧ (refusal = none → u.ring = [] → exec .returnMove s = .next (s.ended e (.refused .nothing)))
      ∧ ∀ target ring, refusal = none → u.ring = target :: ring →
          (u.pos ≠ target → (s.pins.get a).driverFault = false →
            exec .returnMove s = .next ((begun target 1 ring).ended e .done))
          ∧ (u.pos ≠ target → (s.pins.get a).driverFault = true →
            ∃ t, exec .returnMove s = .next (t.ended e .done) ∧ s.FaultedAtLeg t a)
          ∧ (u.pos = target → exec .returnMove s = .next ((done target ring).ended e .done)))
    ∧ (∀ p, (∀ b x y, p ≠ [axisWord b, x, y]) → s.Executes e 0x10#8 p →
        exec .move s = .next (s.ended e (.refused .badField)))
    ∧ ∀ (from_ to_ backlash top : Nat) (way : Dir), from_ ≠ to_ → to_ ≤ top →
        let legs := legsOf from_ to_ backlash top way
        (∀ leg ∈ legs, leg.stop ≤ top)
        ∧ legs.getLast?.map (·.stop) = some to_ ∧ legs.length ≤ 2
        ∧ (legs.getLast?.map (·.dir) = some way
            ∨ (way = .raise ∧ to_ < from_ ∧ to_ - backlash = to_) ∨ (way = .lower ∧ from_ < to_ ∧ min top (to_ + backlash) = to_))

/-- HOME out of STARTING (R181, R182, R79, R183): refused for a set that is empty or names another bit, for a lock,
and for an axis that moves or homes; else every named axis enters HOMING with its position, ring and last end
cleared, in BACKOFF where its switch is closed and in SEEK where it is open, and no other axis changes. Then each
first leg is checked: a named axis that is HOMING with its driver fault asserted goes to FAULT with HOME_FAILED and
AXIS_FAULT, and the others go on. That all axes enter first and are checked after in the order V, H, F, and that a
sequence which the delivered lock of an earlier fault has ended is passed over, is the model's choice
(assumption 18). -/
def Obligations.HomeStartsEveryNamedAxis : Prop :=
  ∀ (s : State) (e : Envelope), s.startup.part ≠ .starting →
    (∀ p, p.length ≠ 1 → s.Executes e 0x15#8 p → exec .home s = .next (s.ended e (.refused .badField)))
    ∧ ∀ w : Word, s.Executes e 0x15#8 [w] →
    let named := fun (a : Axis) => w.getLsbD (axisNumber a)
    (w.toNat = 0 ∨ 7 < w.toNat → exec .home s = .next (s.ended e (.refused .badField)))
    ∧ (1 ≤ w.toNat → w.toNat ≤ 7 →
      ((∃ a, named a = true ∧ ((s.axis a).hostLock = true ∨ (s.axis a).protLock = true)) →
        exec .home s = .next (s.ended e (.refused .locked)))
      ∧ ((∀ a, named a = true → (s.axis a).hostLock = false ∧ (s.axis a).protLock = false) →
        ((∃ a, named a = true ∧ ((s.axis a).phase.inMove = true ∨ (s.axis a).phase.isHoming = true)) →
          exec .home s = .next (s.ended e (.refused .busy)))
        ∧ ((∀ a, named a = true → (s.axis a).phase.inMove = false ∧ (s.axis a).phase.isHoming = false) →
          let checked := fun (r : State) (a : Axis) (t : State) =>
            if named a = true ∧ (r.axis a).phase.isHoming = true ∧ (s.pins.get a).driverFault = true then
              r.FaultedAtLeg t a ∧ t.sender.has (.homeFailed a) = true
            else t = r
          ∃ lens,
            let entered := { s with
              lens := lens
              place := if named .v = true ∨ named .h = true then s.place.cancelled else s.place
              focus := if named .f = true then { s.focus with base := 0, applied := 0, record := none } else s.focus }
            (∃ r1 r2 t, checked entered .v r1 ∧ checked r1 .h r2 ∧ checked r2 .f t
              ∧ exec .home s = .next (t.ended e .done))
            ∧ ((∀ a, named a = true → (s.pins.get a).driverFault = false) →
                exec .home s = .next (entered.ended e .done))
            ∧ lens.profiles = s.lens.profiles
            ∧ (∀ a, named a = false → lens.axes.get a = s.axis a)
            ∧ ∀ a, named a = true →
                let closed := (s.pins.get a).switchClosed
                let cal := (s.axis a).cal
                lens.axes.get a = { s.axis a with
                  pos := 0, ring := [], lastEnd := .none
                  dirOut := if closed then .raise else .lower
                  phase := .homing { phase := if closed then .backoff else .seek
                                     bound := if closed then cal.backlash + 256 else cal.max * 11 / 10
                                     profile := s.lens.profiles.getD cal.homingProfile ⟨300, 300, 0⟩
                                     steps := 0, lastIndex := 0, halt := none } })))

/-- A step (R62, R63, R65, R67, R71, R182): a MOVING axis goes one position along its leg at the rate of its ramp
index, and at the leg's last step begins the next leg or completes; a STOPPING axis takes its remaining
steps and stands, or begins the retargeted move; a leg that begins with the driver fault asserted brings the axis to
FAULT (R79); a HOMING axis counts a step without a position; any other issues none. -/
def Obligations.AxisStepFollowsTheRateLaw : Prop :=
  ∀ (s : State) (a : Axis), s.hold.held = false →
    let u := s.axis a
    let rate := fun (q : Profile) (i : Nat) => if q.ramp = 0 then q.top else q.start + (q.top - q.start) * i / q.ramp
    let moved := fun (leg : Leg) => match leg.dir with
      | .raise => u.pos + 1
      | .lower => u.pos - 1
    (∀ m leg, u.phase = .moving m → m.leg = some leg → leg.rest u.pos ≠ 0 →
      let i := min m.k (min (leg.rest u.pos - 1) m.profile.ramp)
      let m1 := { m with k := m.k + 1, lastIndex := i, timer := m.timer.plus ⟨1, rate m.profile i⟩ }
      let t := s.setAxis a { u with phase := .moving m1, pos := moved leg, pulses := u.pulses + 1 }
      (leg.rest u.pos ≠ 1 → exec (.axisStep a) s = .next t)
      ∧ (leg.rest u.pos = 1 → m.current = m.legs.length →
          exec (.axisStep a) s = .next (t.completeMove a m.owner))
      ∧ (∀ second, leg.rest u.pos = 1 → m.current < m.legs.length → m.legs[m.current]? = some second →
          (s.pins.get a).driverFault = false →
          exec (.axisStep a) s = .next (s.setAxis a { u with
            phase := .moving { m with current := m.current + 1, k := 0, lastIndex := 0, timer := ⟨0, 1⟩ }
            pos := moved leg, pulses := u.pulses + 1, dirOut := second.dir }))
      ∧ (leg.rest u.pos = 1 → m.current < m.legs.length → (s.pins.get a).driverFault = true →
          ∃ r, exec (.axisStep a) s = .next r
            ∧ (s.setAxis a { u with pulses := u.pulses + 1 }).FaultedAtLeg r a))
    ∧ (∀ m leg intent left, u.phase = .stopping m intent left → m.leg = some leg → leg.rest u.pos ≠ 0 →
      let m1 := { m with k := m.k + 1, lastIndex := left - 1
                         timer := m.timer.plus ⟨1, rate m.profile (left - 1)⟩ }
      let t := s.setAxis a { u with
        phase := .stopping m1 intent (left - 1), pos := moved leg, pulses := u.pulses + 1 }
      (2 ≤ left → exec (.axisStep a) s = .next t)
      ∧ (∀ r, left = 1 → intent = .idle r → exec (.axisStep a) s = .next (t.standIdle a r m1))
      ∧ (left = 1 → intent = .holding → exec (.axisStep a) s = .next (t.setPhase a (.holding m1)))
      ∧ (∀ target, left = 1 → intent = .retarget target → u.locked = false →
          exec (.axisStep a) s = .next (t.beginMove a target .placement 1))
      ∧ (∀ target, left = 1 → intent = .retarget target → u.locked = false → moved leg ≠ target →
          (s.pins.get a).driverFault = true → ∃ r, exec (.axisStep a) s = .next r
            ∧ (s.setAxis a { u with pulses := u.pulses + 1 }).FaultedAtLeg r a))
    ∧ (∀ run, u.phase = .homing run → run.halt = none → run.steps < run.bound →
      exec (.axisStep a) s = .next (s.setAxis a { u with
        phase := .homing { run with steps := run.steps + 1
                                    lastIndex := min run.steps (min (run.bound - 1 - run.steps) run.profile.ramp) }
        pulses := u.pulses + 1 }))
    ∧ (∀ run r left, u.phase = .homing run → run.halt = some (r, left) →
      let t := s.setAxis a { u with
        phase := .homing { run with steps := run.steps + 1, lastIndex := left - 1, halt := some (r, left - 1) }
        pulses := u.pulses + 1 }
      (2 ≤ left → exec (.axisStep a) s = .next t)
      ∧ (left = 1 → exec (.axisStep a) s = .next (t.standUnhomed a r)))
    ∧ (u.phase = .idle ∨ u.phase = .unhomed ∨ u.phase = .fault ∨ (∃ m, u.phase = .holding m) →
      exec (.axisStep a) s = .next s)

/-- The low limit switch (R77, R79, R87, R98, R182, R183): a closure on a moving or stopping axis stops it at once at
0, homed, with SLIP and LENS_FAULT beyond the tolerance and STOPPED within it, and tells the placement tracker of a
placement move that it was stopped; another axis changes only where the level that LENS_FAULT raises newly locks it;
in SEEK it begins BACKOFF, or finds the driver fault asserted there, and in BACKOFF an opening ends the sequence at 0;
during a deceleration of homing either ends it; otherwise only the level changes. That the event acts whatever level
the input held before it is the model's choice (assumption 36). -/
def Obligations.LimitSwitchStopsOrHomes : Prop :=
  ∀ (s : State) (a : Axis), s.hold.held = false →
    let u := s.axis a
    let closed := s.setPin a { s.pins.get a with switchClosed := true }
    let opened := s.setPin a { s.pins.get a with switchClosed := false }
    (∀ m, u.phase.record = some m → (∀ q, u.phase ≠ .holding q) →
      ∃ t, exec (.limitSwitchClose a) s = .next t
        ∧ t.pins = closed.pins
        ∧ (t.axis a).phase = .idle ∧ (t.axis a).pos = 0 ∧ (t.axis a).ring = u.ring
        ∧ (u.cal.slipTolerance < u.pos → (t.axis a).lastEnd = .slip ∧ t.sender.has (.slip a) = true
            ∧ t.prot.pending.get .lensFault = true)
        ∧ (u.pos ≤ u.cal.slipTolerance → (t.axis a).lastEnd = .stopped .limit
            ∧ t.sender = s.sender.raise (.stopped a) ∧ t.prot = s.prot)
        ∧ (a = Axis.f → t.focus.base = 0 ∧ t.focus.applied = 0 ∧ t.focus.record = none)
        ∧ (let told := if m.owner = .placement then s.place.moveEnded a true else s.place
           (u.pos ≤ u.cal.slipTolerance → t.place = told ∧ ∀ b, b ≠ a → t.axis b = s.axis b)
           ∧ (∀ b, b ≠ a → (t.axis b).protLock = false ∨ (s.axis b).locked = true →
                t.axis b = { s.axis b with protLock := (t.axis b).protLock })
           ∧ ((∀ b, b ≠ a → (t.axis b).protLock = false ∨ (s.axis b).locked = true) → t.place = told))
        ∧ t.startup = s.startup ∧ t.link = s.link ∧ t.intake = s.intake ∧ t.table = s.table ∧ t.gen = s.gen
        ∧ t.mem = s.mem ∧ t.sensors = s.sensors ∧ t.hold = s.hold ∧ t.pending = s.pending)
    ∧ (∀ run, u.phase = .homing run → run.halt = none →
      (run.phase = .seek → (s.pins.get a).driverFault = false →
        exec (.limitSwitchClose a) s = .next (closed.setAxis a { u with
          dirOut := .raise
          phase := .homing { phase := .backoff, bound := u.cal.backlash + 256
                             profile := s.lens.profiles.getD u.cal.homingProfile ⟨300, 300, 0⟩
                             steps := 0, lastIndex := 0, halt := none } }))
      ∧ (run.phase = .seek → (s.pins.get a).driverFault = true →
        ∃ t, exec (.limitSwitchClose a) s = .next t ∧ closed.FaultedAtLeg t a
          ∧ t.sender.has (.homeFailed a) = true)
      ∧ (run.phase = .backoff → exec (.limitSwitchClose a) s = .next closed)
      ∧ (run.phase = .backoff → exec (.limitSwitchOpen a) s = .next (State.raise
          (opened.setAxis a { u with phase := .idle, pos := 0, lastEnd := .homed }) (.homeDone a)))
      ∧ (run.phase = .seek → exec (.limitSwitchOpen a) s = .next opened))
    ∧ (∀ run r left, u.phase = .homing run → run.halt = some (r, left) →
      exec (.limitSwitchClose a) s = .next (closed.standUnhomed a r)
      ∧ exec (.limitSwitchOpen a) s = .next (opened.standUnhomed a r))
    ∧ (u.phase = .idle ∨ u.phase = .unhomed ∨ u.phase = .fault ∨ (∃ m, u.phase = .holding m) →
      exec (.limitSwitchClose a) s = .next closed ∧ exec (.limitSwitchOpen a) s = .next opened)
    ∧ ((∀ run, u.phase ≠ .homing run) → exec (.limitSwitchOpen a) s = .next opened)

/-- A leg timeout, a driver fault and a homing bound (R78, R79, R183): the axis is at once in FAULT, not homed,
with LENS_FAULT pending and the last end and event of its cause; an axis already in FAULT is not changed. A
bound event that finds the homing leg short of its bound changes nothing (R185). Three clauses are the model's
choice: a withdrawn driver fault changes only the level of the input (assumption 7), a timeout acts on the axis
state whatever the leg timer says (assumption 1), and an assertion acts whatever level the input held before it
(assumption 36). -/
def Obligations.AxisFaultsTakeEffectAtOnce : Prop :=
  ∀ (s : State) (a : Axis), s.hold.held = false →
    let u := s.axis a
    let faulted := fun (t : State) =>
      (t.axis a).phase = .fault ∧ (t.axis a).pos = 0 ∧ (t.axis a).ring = [] ∧ t.prot.pending.get .lensFault = true
      ∧ (a ≠ Axis.f → t.place.state = .none) ∧ (a = Axis.f → t.focus.base = 0 ∧ t.focus.applied = 0 ∧ t.focus.record = none)
      ∧ t.startup = s.startup ∧ t.link = s.link ∧ t.intake = s.intake ∧ t.table = s.table ∧ t.gen = s.gen
      ∧ t.mem = s.mem ∧ t.sensors = s.sensors ∧ t.hold = s.hold ∧ t.pending = s.pending
    ((∃ m, u.phase = .moving m) ∨ (∃ m i l, u.phase = .stopping m i l) →
      ∃ t, exec (.moveTimeout a) s = .next t ∧ faulted t ∧ (t.axis a).lastEnd = .fault .timeout
        ∧ t.sender.has (.axisFault a) = true)
    ∧ (u.phase ≠ .fault → ∃ t, exec (.driverFault a true) s = .next t ∧ faulted t
        ∧ (t.axis a).lastEnd = .fault .driver ∧ t.sender.has (.axisFault a) = true
        ∧ t.pins = s.pins.set a { s.pins.get a with driverFault := true }
        ∧ (u.phase.isHoming = true → t.sender.has (.homeFailed a) = true))
    ∧ (u.phase = .fault → exec (.driverFault a true) s
        = .next { s with pins := s.pins.set a { s.pins.get a with driverFault := true } })
    ∧ exec (.driverFault a false) s = .next { s with pins := s.pins.set a { s.pins.get a with driverFault := false } }
    ∧ (∀ run, u.phase = .homing run → run.halt = none → run.steps < run.bound →
        exec (.homingBoundReached a) s = .next s)
    ∧ (∀ run, u.phase = .homing run → run.halt = none → run.bound ≤ run.steps →
        ∃ t, exec (.homingBoundReached a) s = .next t ∧ faulted t ∧ t.sender.has (.homeFailed a) = true
          ∧ (t.axis a).lastEnd = .homeFailed (match run.phase with
              | .seek => .noSwitch
              | .backoff => .stuckSwitch))

/-! ### Placement -/

/-- PLACE out of STARTING (R76, R79, R85 to R87, R93): the checks in their order; else the targets are stored, both
axes are asked for their lens targets, an axis that stands there completes at once, and the placement is TRACKING.
Where the leg of V or H begins with its driver fault asserted, that axis goes to FAULT and the placement is NONE; that
V is asked first, and H then by the state it is in, is the model's choice (assumption 19). -/
def Obligations.PlaceAsksBothAxes : Prop :=
  ∀ (s : State) (e : Envelope), s.startup.part ≠ .starting →
    (∀ p, p.length ≠ 2 → s.Executes e 0x16#8 p → exec .place s = .next (s.ended e (.refused .badField)))
    ∧ ∀ x y : Word, s.Executes e 0x16#8 [x, y] →
    let ox := x.toInt
    let oy := y.toInt
    let v := s.axis .v
    let h := s.axis .h
    let target := fun (c : Cal) (n : Int) => max 0 (min (c.max : Int) ((c.reference : Int) + roundDiv (n * 1024) c.pps))
    let homed := v.homed = true ∧ h.homed = true
    let unlocked := v.locked = false ∧ h.locked = false
    let placeable := v.phase.placeable = true ∧ h.phase.placeable = true
    let inRange := -3840 ≤ ox ∧ ox ≤ 3840 ∧ -2160 ≤ oy ∧ oy ≤ 2160
    (¬ inRange → exec .place s = .next (s.ended e (.refused .badField)))
    ∧ (inRange → ¬ homed → exec .place s = .next (s.ended e (.refused .notHomed)))
    ∧ (inRange → homed → ¬ unlocked → exec .place s = .next (s.ended e (.refused .locked)))
    ∧ (inRange → homed → unlocked → ¬ placeable → exec .place s = .next (s.ended e (.refused .busy)))
    ∧ (inRange → homed → unlocked → placeable →
        let asked := fun (r : State) (a : Axis) (goal : Nat) (t : State) =>
          let u := r.axis a
          let stands := u.phase = .idle ∨ (∃ m, u.phase = .holding m) ∨ ∃ m, u.phase = .moving m ∧ m.lastIndex = 0
          (u.locked = true → t = r)
          ∧ (u.locked = false →
            (stands → goal = u.pos → t = { r.setAxis a { u with phase := .idle, lastEnd := .completed } with
              place := r.place.moveEnded a false })
            ∧ (stands → goal ≠ u.pos → (s.pins.get a).driverFault = true → r.FaultedAtLeg t a)
            ∧ (stands → goal ≠ u.pos → (s.pins.get a).driverFault = false →
                ∃ leg legs, legsOf u.pos goal u.cal.backlash u.cal.max (s.approach a) = leg :: legs
                  ∧ t = r.setAxis a { u with
                      dirOut := leg.dir
                      phase := .moving { target := goal, owner := .placement, profileNo := 1
                                         profile := s.lens.profiles.getD 1 ⟨300, 300, 0⟩, legs := leg :: legs
                                         current := 1, k := 0, lastIndex := 0, timer := ⟨0, 1⟩ } })
            ∧ (∀ m, u.phase = .moving m → m.lastIndex ≠ 0 →
                t = r.setAxis a { u with phase := .stopping m (.retarget goal) m.lastIndex })
            ∧ (∀ m i left, u.phase = .stopping m i left →
                t = r.setAxis a { u with phase := .stopping m (.retarget goal) left }))
        let tv := (target v.cal oy).toNat
        let th := (target h.cal ox).toNat
        ∃ r t, asked { s with place := { s.place with
              state := .tracking, ox := ox, oy := oy, posVt := tv, posHt := th, outV := true, outH := true
              shortV := false, shortH := false, settleDue := false } } .v tv r
          ∧ asked r .h th t ∧ exec .place s = .next (t.ended e .done))
    ∧ (inRange → homed → unlocked → placeable →
        (s.pins.get .v).driverFault = false → (s.pins.get .h).driverFault = false →
        ∃ lens place, exec .place s = .next (State.ended { s with lens := lens, place := place } e .done)
          ∧ place.state = .tracking ∧ place.ox = ox ∧ place.oy = oy
          ∧ (place.posVt : Int) = target v.cal oy ∧ (place.posHt : Int) = target h.cal ox
          ∧ place.shortV = false ∧ place.shortH = false
          ∧ place.settleDue = (!place.outV && !place.outH)
          ∧ place.frame = s.place.frame ∧ place.offTarget = s.place.offTarget
          ∧ lens.axes.f = s.axis .f ∧ lens.profiles = s.lens.profiles
          ∧ ∀ a t out, (a = .v ∧ t = place.posVt ∧ out = place.outV) ∨ (a = .h ∧ t = place.posHt ∧ out = place.outH) →
              let u := s.axis a
              let w := lens.axes.get a
              let stands := u.phase = .idle ∨ (∃ m, u.phase = .holding m) ∨ ∃ m, u.phase = .moving m ∧ m.lastIndex = 0
              (stands → t = u.pos → w = { u with phase := .idle, lastEnd := .completed } ∧ out = false)
              ∧ (stands → t ≠ u.pos → out = true ∧ w.pos = u.pos ∧ w.ring = u.ring
                  ∧ ∃ leg legs, legsOf u.pos t u.cal.backlash u.cal.max (s.approach a) = leg :: legs
                    ∧ w.dirOut = leg.dir
                    ∧ w.phase = .moving { target := t, owner := .placement, profileNo := 1
                                          profile := s.lens.profiles.getD 1 ⟨300, 300, 0⟩, legs := leg :: legs
                                          current := 1, k := 0, lastIndex := 0, timer := ⟨0, 1⟩ })
              ∧ (∀ m, u.phase = .moving m → m.lastIndex ≠ 0 →
                  out = true ∧ w = { u with phase := .stopping m (.retarget t) m.lastIndex })
              ∧ (∀ m i left, u.phase = .stopping m i left →
                  out = true ∧ w = { u with phase := .stopping m (.retarget t) left }))

/-! ### Tables and generation -/

/-- TABLE_OPEN, TABLE_RUN and TABLE_COMMIT out of STARTING (R26, R27, R29, R30): BUSY while a commit is pending or
a generation runs; else the load bank is cleared and opened; a run of one to five records replaces exactly
its lines; and a bank that passes validation waits as a pending commit, while the first failing line refuses
it. -/
def Obligations.TableMessagesLoadTheOtherBank : Prop :=
  ∀ (s : State) (e : Envelope) (p : List Word), s.startup.part ≠ .starting →
    let busy := s.table.commit.isSome = true ∨ s.gen.running.isSome = true
    (∀ w h : Word, p = [w, h] → s.Executes e 0x21#8 p →
      let ok := 640 ≤ w.toNat ∧ w.toNat ≤ 3840 ∧ 360 ≤ h.toNat ∧ h.toNat ≤ 2160
      (¬ ok → exec .tableOpen s = .next (s.ended e (.refused .badField)))
      ∧ (ok → busy → exec .tableOpen s = .next (s.ended e (.refused .busy)))
      ∧ (ok → ¬ busy → exec .tableOpen s = .next (State.ended { s with table :=
          { s.table.setLoadBank ⟨⟨w.toNat, h.toNat⟩, .loaded, []⟩ with loadOpen := true, auto := false } } e .done)))
    ∧ (∀ (start : Word) (recs : List (List Word)), p = start :: recs.flatten → (∀ r ∈ recs, r.length = 11) →
      s.Executes e 0x22#8 p →
      let ok := 1 ≤ recs.length ∧ recs.length ≤ 5 ∧ start.toNat + recs.length ≤ 2160
      (¬ ok → exec .tableRun s = .next (s.ended e (.refused .badField)))
      ∧ (ok → busy → exec .tableRun s = .next (s.ended e (.refused .busy)))
      ∧ (ok → ¬ busy → s.table.loadOpen = false → exec .tableRun s = .next (s.ended e (.refused .badState)))
      ∧ (ok → ¬ busy → s.table.loadOpen = true → bankWf s.table.loadBank →
          ∃ bank, exec .tableRun s = .next (State.ended { s with table := s.table.setLoadBank bank } e .done)
            ∧ bank.size = s.table.loadBank.size ∧ bank.source = s.table.loadBank.source
            ∧ (∀ j, j < start.toNat ∨ start.toNat + recs.length ≤ j →
                bankRecord bank j = bankRecord s.table.loadBank j)
            ∧ ∀ i kind xl xr u1 u0 a1 a0 v1 v0 b1 b0,
                recs[i]? = some [kind, xl, xr, u1, u0, a1, a0, v1, v0, b1, b0] →
                bankRecord bank (start.toNat + i)
                  = ⟨kind.toNat, xl.toNat, xr.toNat, (u1 ++ u0 : BitVec 32).toInt, (a1 ++ a0 : BitVec 32).toInt,
                      (v1 ++ v0 : BitVec 32).toInt, (b1 ++ b0 : BitVec 32).toInt⟩))
    ∧ (p.length ≠ 2 → s.Executes e 0x21#8 p → exec .tableOpen s = .next (s.ended e (.refused .badField)))
    ∧ (p.length % 11 ≠ 1 → s.Executes e 0x22#8 p → exec .tableRun s = .next (s.ended e (.refused .badField)))
    ∧ ((∀ cond : ParityCond, p ≠ [BitVec.ofNat 16 (condCode cond)]) → s.Executes e 0x23#8 p →
        exec .tableCommit s = .next (s.ended e (.refused .badField)))
    ∧ (∀ cond : ParityCond, p = [BitVec.ofNat 16 (condCode cond)] → s.Executes e 0x23#8 p →
      (busy → exec .tableCommit s = .next (s.ended e (.refused .busy)))
      ∧ (¬ busy → s.table.loadOpen = false → exec .tableCommit s = .next (s.ended e (.refused .badState)))
      ∧ (¬ busy → s.table.loadOpen = true → bankWf s.table.loadBank →
          ((∀ j, (bankRecord s.table.loadBank j).failure = none) → exec .tableCommit s
            = .next (State.ended { s with table := { s.table with commit := some cond } } e .done))
          ∧ ∀ j test, (bankRecord s.table.loadBank j).failure = some test →
              (∀ k, k < j → (bankRecord s.table.loadBank k).failure = none) →
              exec .tableCommit s = .next (s.ended e (.badTable j test))))

/-- CORNERS out of STARTING and the generation's end (R42, R43, R46, R49, R50, R52): a set in order starts a
generation for the last declared size in the cleared load bank with AUTO set; at its end the computed lines
stand there, and success makes the commit pending with ANY, the mode TABLE and GEN_DONE set, while the first
failing line leaves GEN_FAILED and the outcome; a payload that is no four corners of the panel is refused
BAD_FIELD. -/
def Obligations.GenerationFillsTheLoadBank : Prop :=
  ∀ s : State,
    (∀ (e : Envelope) (c : CornerSet), s.startup.part ≠ .starting →
      (∀ q ∈ [c.tl, c.tr, c.bl, c.br], 0 ≤ q.x ∧ q.x ≤ 3839 ∧ 0 ≤ q.y ∧ q.y ≤ 2159) →
      s.Executes e 0x24#8 ([c.tl, c.tr, c.bl, c.br].flatMap fun q => [BitVec.ofInt 16 q.x, BitVec.ofInt 16 q.y]) →
      let ordered := c.tl.x < c.tr.x ∧ c.bl.x < c.br.x ∧ c.tl.y < c.bl.y ∧ c.tr.y < c.br.y
      let busy := s.table.commit.isSome = true ∨ s.gen.running.isSome = true
      (¬ ordered → exec .corners s = .next (s.ended e (.refused .badField)))
      ∧ (ordered → busy → exec .corners s = .next (s.ended e (.refused .busy)))
      ∧ (ordered → ¬ busy → (∀ z, s.link.lastSize = some z → z.inFormats = false) →
          exec .corners s = .next (s.ended e (.refused .badState)))
      ∧ (∀ z, ordered → ¬ busy → s.link.lastSize = some z → z.inFormats = true →
          exec .corners s = .next (State.ended { s with
            gen := { s.gen with corners := some c, running := some z }
            table := { s.table.setLoadBank ⟨z, .generated, []⟩ with auto := true, loadOpen := false } } e .done)))
    ∧ (∀ (e : Envelope) (p : List Word), s.startup.part ≠ .starting →
        (∀ c : CornerSet, (∀ q ∈ [c.tl, c.tr, c.bl, c.br], 0 ≤ q.x ∧ q.x ≤ 3839 ∧ 0 ≤ q.y ∧ q.y ≤ 2159) →
          p ≠ [c.tl, c.tr, c.bl, c.br].flatMap fun q => [BitVec.ofInt 16 q.x, BitVec.ofInt 16 q.y]) →
        s.Executes e 0x24#8 p → exec .corners s = .next (s.ended e (.refused .badField)))
    ∧ (∀ (c : CornerSet) (z : Size), s.hold.held = false → s.gen.running = some z → s.gen.corners = some c →
      ∃ records outcome,
        let ended := { s with
          table := s.table.setLoadBank { s.table.loadBank with records := records }
          gen := { s.gen with running := none, outcome := outcome } }
        let line := fun (j : Nat) => (storeFind records j).getD darkRecord
        ((∃ j, j < 2160 ∧ generatedLine c z j = none) →
          exec .generationEnd s = .next (ended.raise .genFailed)
          ∧ ∃ j, generatedLine c z j = none ∧ outcome = .failed .badShape j
              ∧ (∀ k, k < j → generatedLine c z k = some (line k)) ∧ ∀ k, j ≤ k → line k = darkRecord)
        ∧ ((∀ j, j < 2160 → generatedLine c z j ≠ none) →
          (∀ j, j < 2160 → generatedLine c z j = some (line j))
          ∧ ((∀ j, j < 2160 → (line j).failure = none) → outcome = .success
              ∧ exec .generationEnd s = .next (State.raise { ended with
                  table := { ended.table with commit := some .any }
                  picture := { s.picture with mode := .table } } .genDone))
          ∧ ∀ j test, j < 2160 → (line j).failure = some test → (∀ k, k < j → (line k).failure = none) →
              outcome = .failed (.test test) j ∧ exec .generationEnd s = .next (ended.raise .genFailed)))

end
end

