-- ==== Sys2Proof/Laws/Arith.lean ====
section
/-! SUPPORT. The shared arithmetic: clamping and interpolation, each with what its result lies between. -/

namespace Sys2Proof.Machine

theorem clampInt_eq {lo hi : Int} (h : lo ≤ hi) (x : Int) : clampInt lo hi x = max lo (min hi x) := by
  unfold clampInt
  split
  · omega
  · split <;> omega

theorem clampInt_range {lo hi : Int} (h : lo ≤ hi) (x : Int) : lo ≤ clampInt lo hi x ∧ clampInt lo hi x ≤ hi := by
  rw [clampInt_eq h]
  omega

/-- An interpolated value lies within any range that holds the breakpoints' values. -/
theorem interpolate_range {lo hi : Int} {t : List Breakpoint} (h : ∀ b ∈ t, lo ≤ b.value ∧ b.value ≤ hi)
    (hz : lo ≤ 0 ∧ 0 ≤ hi) (r : Int) : lo ≤ interpolate t r ∧ interpolate t r ≤ hi := by
  fun_induction interpolate t r with
  | case1 => exact hz
  | case2 => exact h _ (by simp)
  | case3 => exact h _ (by simp)
  | case4 p q rest r h1 h2 =>
    have hp := h p (by simp)
    have hq := h q (by simp)
    have hd : 0 < q.t - p.t := by omega
    have hx : 0 ≤ r - p.t := by omega
    have hy : r - p.t ≤ q.t - p.t := by omega
    constructor
    · by_cases hv : p.value ≤ q.value
      · have : 0 ≤ (q.value - p.value) * (r - p.t) / (q.t - p.t) :=
          Int.ediv_nonneg (mul_nonneg (by omega) hx) hd.le
        omega
      · have : q.value - p.value ≤ (q.value - p.value) * (r - p.t) / (q.t - p.t) := by
          rw [Int.le_ediv_iff_mul_le hd]
          nlinarith
        omega
    · by_cases hv : p.value ≤ q.value
      · have : (q.value - p.value) * (r - p.t) / (q.t - p.t) ≤ q.value - p.value := by
          apply Int.ediv_le_of_le_mul hd
          nlinarith
        omega
      · have : (q.value - p.value) * (r - p.t) / (q.t - p.t) ≤ 0 := by
          apply Int.ediv_le_of_le_mul hd
          nlinarith
        omega
  | case5 p q rest r h1 h2 ih => exact ih fun b hb => h b (by simp [hb])

end Sys2Proof.Machine
end

