-- ==== Sys2Proof/Laws/State.lean ====
section
/-! SUPPORT. Reading the state after each named update: one lemma for each field that the update leaves, one
for what it writes, and what reading one axis, sensor or fan gives after writing one. -/

namespace Sys2Proof.Machine

/-! ### raise -/

@[simp] theorem State.raise_pending (s : State) (e : EventFlag) : (s.raise e).pending = s.pending := rfl

@[simp] theorem State.raise_hold (s : State) (e : EventFlag) : (s.raise e).hold = s.hold := rfl

@[simp] theorem State.raise_pins (s : State) (e : EventFlag) : (s.raise e).pins = s.pins := rfl

@[simp] theorem State.raise_startup (s : State) (e : EventFlag) : (s.raise e).startup = s.startup := rfl

@[simp] theorem State.raise_link (s : State) (e : EventFlag) : (s.raise e).link = s.link := rfl

@[simp] theorem State.raise_mem (s : State) (e : EventFlag) : (s.raise e).mem = s.mem := rfl

@[simp] theorem State.raise_intake (s : State) (e : EventFlag) : (s.raise e).intake = s.intake := rfl

@[simp] theorem State.raise_sender (s : State) (e : EventFlag) : (s.raise e).sender = s.sender.raise e := rfl

@[simp] theorem State.raise_picture (s : State) (e : EventFlag) : (s.raise e).picture = s.picture := rfl

@[simp] theorem State.raise_table (s : State) (e : EventFlag) : (s.raise e).table = s.table := rfl

@[simp] theorem State.raise_gen (s : State) (e : EventFlag) : (s.raise e).gen = s.gen := rfl

@[simp] theorem State.raise_lens (s : State) (e : EventFlag) : (s.raise e).lens = s.lens := rfl

@[simp] theorem State.raise_place (s : State) (e : EventFlag) : (s.raise e).place = s.place := rfl

@[simp] theorem State.raise_focus (s : State) (e : EventFlag) : (s.raise e).focus = s.focus := rfl

@[simp] theorem State.raise_sensors (s : State) (e : EventFlag) : (s.raise e).sensors = s.sensors := rfl

@[simp] theorem State.raise_light (s : State) (e : EventFlag) : (s.raise e).light = s.light := rfl

@[simp] theorem State.raise_fans (s : State) (e : EventFlag) : (s.raise e).fans = s.fans := rfl

@[simp] theorem State.raise_prot (s : State) (e : EventFlag) : (s.raise e).prot = s.prot := rfl

/-! ### setAxis -/

@[simp] theorem State.setAxis_pending (s : State) (a : Axis) (u : AxisUnit) : (s.setAxis a u).pending = s.pending := rfl

@[simp] theorem State.setAxis_hold (s : State) (a : Axis) (u : AxisUnit) : (s.setAxis a u).hold = s.hold := rfl

@[simp] theorem State.setAxis_pins (s : State) (a : Axis) (u : AxisUnit) : (s.setAxis a u).pins = s.pins := rfl

@[simp] theorem State.setAxis_startup (s : State) (a : Axis) (u : AxisUnit) : (s.setAxis a u).startup = s.startup := rfl

@[simp] theorem State.setAxis_link (s : State) (a : Axis) (u : AxisUnit) : (s.setAxis a u).link = s.link := rfl

@[simp] theorem State.setAxis_mem (s : State) (a : Axis) (u : AxisUnit) : (s.setAxis a u).mem = s.mem := rfl

@[simp] theorem State.setAxis_intake (s : State) (a : Axis) (u : AxisUnit) : (s.setAxis a u).intake = s.intake := rfl

@[simp] theorem State.setAxis_sender (s : State) (a : Axis) (u : AxisUnit) : (s.setAxis a u).sender = s.sender := rfl

@[simp] theorem State.setAxis_picture (s : State) (a : Axis) (u : AxisUnit) : (s.setAxis a u).picture = s.picture := rfl

@[simp] theorem State.setAxis_table (s : State) (a : Axis) (u : AxisUnit) : (s.setAxis a u).table = s.table := rfl

@[simp] theorem State.setAxis_gen (s : State) (a : Axis) (u : AxisUnit) : (s.setAxis a u).gen = s.gen := rfl

@[simp] theorem State.setAxis_place (s : State) (a : Axis) (u : AxisUnit) : (s.setAxis a u).place = s.place := rfl

@[simp] theorem State.setAxis_focus (s : State) (a : Axis) (u : AxisUnit) : (s.setAxis a u).focus = s.focus := rfl

@[simp] theorem State.setAxis_sensors (s : State) (a : Axis) (u : AxisUnit) : (s.setAxis a u).sensors = s.sensors := rfl

@[simp] theorem State.setAxis_light (s : State) (a : Axis) (u : AxisUnit) : (s.setAxis a u).light = s.light := rfl

@[simp] theorem State.setAxis_fans (s : State) (a : Axis) (u : AxisUnit) : (s.setAxis a u).fans = s.fans := rfl

@[simp] theorem State.setAxis_prot (s : State) (a : Axis) (u : AxisUnit) : (s.setAxis a u).prot = s.prot := rfl

/-! ### setPhase -/

@[simp] theorem State.setPhase_pending (s : State) (a : Axis) (p : Phase) : (s.setPhase a p).pending = s.pending := rfl

@[simp] theorem State.setPhase_hold (s : State) (a : Axis) (p : Phase) : (s.setPhase a p).hold = s.hold := rfl

@[simp] theorem State.setPhase_pins (s : State) (a : Axis) (p : Phase) : (s.setPhase a p).pins = s.pins := rfl

@[simp] theorem State.setPhase_startup (s : State) (a : Axis) (p : Phase) : (s.setPhase a p).startup = s.startup := rfl

@[simp] theorem State.setPhase_link (s : State) (a : Axis) (p : Phase) : (s.setPhase a p).link = s.link := rfl

@[simp] theorem State.setPhase_mem (s : State) (a : Axis) (p : Phase) : (s.setPhase a p).mem = s.mem := rfl

@[simp] theorem State.setPhase_intake (s : State) (a : Axis) (p : Phase) : (s.setPhase a p).intake = s.intake := rfl

@[simp] theorem State.setPhase_sender (s : State) (a : Axis) (p : Phase) : (s.setPhase a p).sender = s.sender := rfl

@[simp] theorem State.setPhase_picture (s : State) (a : Axis) (p : Phase) : (s.setPhase a p).picture = s.picture := rfl

@[simp] theorem State.setPhase_table (s : State) (a : Axis) (p : Phase) : (s.setPhase a p).table = s.table := rfl

@[simp] theorem State.setPhase_gen (s : State) (a : Axis) (p : Phase) : (s.setPhase a p).gen = s.gen := rfl

@[simp] theorem State.setPhase_place (s : State) (a : Axis) (p : Phase) : (s.setPhase a p).place = s.place := rfl

@[simp] theorem State.setPhase_focus (s : State) (a : Axis) (p : Phase) : (s.setPhase a p).focus = s.focus := rfl

@[simp] theorem State.setPhase_sensors (s : State) (a : Axis) (p : Phase) : (s.setPhase a p).sensors = s.sensors := rfl

@[simp] theorem State.setPhase_light (s : State) (a : Axis) (p : Phase) : (s.setPhase a p).light = s.light := rfl

@[simp] theorem State.setPhase_fans (s : State) (a : Axis) (p : Phase) : (s.setPhase a p).fans = s.fans := rfl

@[simp] theorem State.setPhase_prot (s : State) (a : Axis) (p : Phase) : (s.setPhase a p).prot = s.prot := rfl

/-! ### setLastEnd -/

@[simp] theorem State.setLastEnd_pending (s : State) (a : Axis) (x : LastEnd) : (s.setLastEnd a x).pending = s.pending := rfl

@[simp] theorem State.setLastEnd_hold (s : State) (a : Axis) (x : LastEnd) : (s.setLastEnd a x).hold = s.hold := rfl

@[simp] theorem State.setLastEnd_pins (s : State) (a : Axis) (x : LastEnd) : (s.setLastEnd a x).pins = s.pins := rfl

@[simp] theorem State.setLastEnd_startup (s : State) (a : Axis) (x : LastEnd) : (s.setLastEnd a x).startup = s.startup := rfl

@[simp] theorem State.setLastEnd_link (s : State) (a : Axis) (x : LastEnd) : (s.setLastEnd a x).link = s.link := rfl

@[simp] theorem State.setLastEnd_mem (s : State) (a : Axis) (x : LastEnd) : (s.setLastEnd a x).mem = s.mem := rfl

@[simp] theorem State.setLastEnd_intake (s : State) (a : Axis) (x : LastEnd) : (s.setLastEnd a x).intake = s.intake := rfl

@[simp] theorem State.setLastEnd_sender (s : State) (a : Axis) (x : LastEnd) : (s.setLastEnd a x).sender = s.sender := rfl

@[simp] theorem State.setLastEnd_picture (s : State) (a : Axis) (x : LastEnd) : (s.setLastEnd a x).picture = s.picture := rfl

@[simp] theorem State.setLastEnd_table (s : State) (a : Axis) (x : LastEnd) : (s.setLastEnd a x).table = s.table := rfl

@[simp] theorem State.setLastEnd_gen (s : State) (a : Axis) (x : LastEnd) : (s.setLastEnd a x).gen = s.gen := rfl

@[simp] theorem State.setLastEnd_place (s : State) (a : Axis) (x : LastEnd) : (s.setLastEnd a x).place = s.place := rfl

@[simp] theorem State.setLastEnd_focus (s : State) (a : Axis) (x : LastEnd) : (s.setLastEnd a x).focus = s.focus := rfl

@[simp] theorem State.setLastEnd_sensors (s : State) (a : Axis) (x : LastEnd) : (s.setLastEnd a x).sensors = s.sensors := rfl

@[simp] theorem State.setLastEnd_light (s : State) (a : Axis) (x : LastEnd) : (s.setLastEnd a x).light = s.light := rfl

@[simp] theorem State.setLastEnd_fans (s : State) (a : Axis) (x : LastEnd) : (s.setLastEnd a x).fans = s.fans := rfl

@[simp] theorem State.setLastEnd_prot (s : State) (a : Axis) (x : LastEnd) : (s.setLastEnd a x).prot = s.prot := rfl

/-! ### setPin -/

@[simp] theorem State.setPin_pending (s : State) (a : Axis) (p : AxisPins) : (s.setPin a p).pending = s.pending := rfl

@[simp] theorem State.setPin_hold (s : State) (a : Axis) (p : AxisPins) : (s.setPin a p).hold = s.hold := rfl

@[simp] theorem State.setPin_pins (s : State) (a : Axis) (p : AxisPins) : (s.setPin a p).pins = s.pins.set a p := rfl

@[simp] theorem State.setPin_startup (s : State) (a : Axis) (p : AxisPins) : (s.setPin a p).startup = s.startup := rfl

@[simp] theorem State.setPin_link (s : State) (a : Axis) (p : AxisPins) : (s.setPin a p).link = s.link := rfl

@[simp] theorem State.setPin_mem (s : State) (a : Axis) (p : AxisPins) : (s.setPin a p).mem = s.mem := rfl

@[simp] theorem State.setPin_intake (s : State) (a : Axis) (p : AxisPins) : (s.setPin a p).intake = s.intake := rfl

@[simp] theorem State.setPin_sender (s : State) (a : Axis) (p : AxisPins) : (s.setPin a p).sender = s.sender := rfl

@[simp] theorem State.setPin_picture (s : State) (a : Axis) (p : AxisPins) : (s.setPin a p).picture = s.picture := rfl

@[simp] theorem State.setPin_table (s : State) (a : Axis) (p : AxisPins) : (s.setPin a p).table = s.table := rfl

@[simp] theorem State.setPin_gen (s : State) (a : Axis) (p : AxisPins) : (s.setPin a p).gen = s.gen := rfl

@[simp] theorem State.setPin_lens (s : State) (a : Axis) (p : AxisPins) : (s.setPin a p).lens = s.lens := rfl

@[simp] theorem State.setPin_place (s : State) (a : Axis) (p : AxisPins) : (s.setPin a p).place = s.place := rfl

@[simp] theorem State.setPin_focus (s : State) (a : Axis) (p : AxisPins) : (s.setPin a p).focus = s.focus := rfl

@[simp] theorem State.setPin_sensors (s : State) (a : Axis) (p : AxisPins) : (s.setPin a p).sensors = s.sensors := rfl

@[simp] theorem State.setPin_light (s : State) (a : Axis) (p : AxisPins) : (s.setPin a p).light = s.light := rfl

@[simp] theorem State.setPin_fans (s : State) (a : Axis) (p : AxisPins) : (s.setPin a p).fans = s.fans := rfl

@[simp] theorem State.setPin_prot (s : State) (a : Axis) (p : AxisPins) : (s.setPin a p).prot = s.prot := rfl

/-! ### setSensor -/

@[simp] theorem State.setSensor_pending (s : State) (x : Sensor) (u : SensorUnit) : (s.setSensor x u).pending = s.pending := rfl

@[simp] theorem State.setSensor_hold (s : State) (x : Sensor) (u : SensorUnit) : (s.setSensor x u).hold = s.hold := rfl

@[simp] theorem State.setSensor_pins (s : State) (x : Sensor) (u : SensorUnit) : (s.setSensor x u).pins = s.pins := rfl

@[simp] theorem State.setSensor_startup (s : State) (x : Sensor) (u : SensorUnit) : (s.setSensor x u).startup = s.startup := rfl

@[simp] theorem State.setSensor_link (s : State) (x : Sensor) (u : SensorUnit) : (s.setSensor x u).link = s.link := rfl

@[simp] theorem State.setSensor_mem (s : State) (x : Sensor) (u : SensorUnit) : (s.setSensor x u).mem = s.mem := rfl

@[simp] theorem State.setSensor_intake (s : State) (x : Sensor) (u : SensorUnit) : (s.setSensor x u).intake = s.intake := rfl

@[simp] theorem State.setSensor_sender (s : State) (x : Sensor) (u : SensorUnit) : (s.setSensor x u).sender = s.sender := rfl

@[simp] theorem State.setSensor_picture (s : State) (x : Sensor) (u : SensorUnit) : (s.setSensor x u).picture = s.picture := rfl

@[simp] theorem State.setSensor_table (s : State) (x : Sensor) (u : SensorUnit) : (s.setSensor x u).table = s.table := rfl

@[simp] theorem State.setSensor_gen (s : State) (x : Sensor) (u : SensorUnit) : (s.setSensor x u).gen = s.gen := rfl

@[simp] theorem State.setSensor_lens (s : State) (x : Sensor) (u : SensorUnit) : (s.setSensor x u).lens = s.lens := rfl

@[simp] theorem State.setSensor_place (s : State) (x : Sensor) (u : SensorUnit) : (s.setSensor x u).place = s.place := rfl

@[simp] theorem State.setSensor_focus (s : State) (x : Sensor) (u : SensorUnit) : (s.setSensor x u).focus = s.focus := rfl

@[simp] theorem State.setSensor_light (s : State) (x : Sensor) (u : SensorUnit) : (s.setSensor x u).light = s.light := rfl

@[simp] theorem State.setSensor_fans (s : State) (x : Sensor) (u : SensorUnit) : (s.setSensor x u).fans = s.fans := rfl

@[simp] theorem State.setSensor_prot (s : State) (x : Sensor) (u : SensorUnit) : (s.setSensor x u).prot = s.prot := rfl

/-! ### setFan -/

@[simp] theorem State.setFan_pending (s : State) (x : Fan) (u : FanUnit) : (s.setFan x u).pending = s.pending := rfl

@[simp] theorem State.setFan_hold (s : State) (x : Fan) (u : FanUnit) : (s.setFan x u).hold = s.hold := rfl

@[simp] theorem State.setFan_pins (s : State) (x : Fan) (u : FanUnit) : (s.setFan x u).pins = s.pins := rfl

@[simp] theorem State.setFan_startup (s : State) (x : Fan) (u : FanUnit) : (s.setFan x u).startup = s.startup := rfl

@[simp] theorem State.setFan_link (s : State) (x : Fan) (u : FanUnit) : (s.setFan x u).link = s.link := rfl

@[simp] theorem State.setFan_mem (s : State) (x : Fan) (u : FanUnit) : (s.setFan x u).mem = s.mem := rfl

@[simp] theorem State.setFan_intake (s : State) (x : Fan) (u : FanUnit) : (s.setFan x u).intake = s.intake := rfl

@[simp] theorem State.setFan_sender (s : State) (x : Fan) (u : FanUnit) : (s.setFan x u).sender = s.sender := rfl

@[simp] theorem State.setFan_picture (s : State) (x : Fan) (u : FanUnit) : (s.setFan x u).picture = s.picture := rfl

@[simp] theorem State.setFan_table (s : State) (x : Fan) (u : FanUnit) : (s.setFan x u).table = s.table := rfl

@[simp] theorem State.setFan_gen (s : State) (x : Fan) (u : FanUnit) : (s.setFan x u).gen = s.gen := rfl

@[simp] theorem State.setFan_lens (s : State) (x : Fan) (u : FanUnit) : (s.setFan x u).lens = s.lens := rfl

@[simp] theorem State.setFan_place (s : State) (x : Fan) (u : FanUnit) : (s.setFan x u).place = s.place := rfl

@[simp] theorem State.setFan_focus (s : State) (x : Fan) (u : FanUnit) : (s.setFan x u).focus = s.focus := rfl

@[simp] theorem State.setFan_sensors (s : State) (x : Fan) (u : FanUnit) : (s.setFan x u).sensors = s.sensors := rfl

@[simp] theorem State.setFan_light (s : State) (x : Fan) (u : FanUnit) : (s.setFan x u).light = s.light := rfl

@[simp] theorem State.setFan_prot (s : State) (x : Fan) (u : FanUnit) : (s.setFan x u).prot = s.prot := rfl

/-! ### ended -/

@[simp] theorem State.ended_pending (s : State) (e : Envelope) (o : MsgOutcome) : (s.ended e o).pending = s.pending := rfl

@[simp] theorem State.ended_hold (s : State) (e : Envelope) (o : MsgOutcome) : (s.ended e o).hold = s.hold := rfl

@[simp] theorem State.ended_pins (s : State) (e : Envelope) (o : MsgOutcome) : (s.ended e o).pins = s.pins := rfl

@[simp] theorem State.ended_startup (s : State) (e : Envelope) (o : MsgOutcome) : (s.ended e o).startup = s.startup := rfl

@[simp] theorem State.ended_link (s : State) (e : Envelope) (o : MsgOutcome) : (s.ended e o).link = s.link := rfl

@[simp] theorem State.ended_mem (s : State) (e : Envelope) (o : MsgOutcome) : (s.ended e o).mem = s.mem := rfl

@[simp] theorem State.ended_intake (s : State) (e : Envelope) (o : MsgOutcome) : (s.ended e o).intake = s.intake.finish e o := rfl

@[simp] theorem State.ended_sender (s : State) (e : Envelope) (o : MsgOutcome) : (s.ended e o).sender = s.sender := rfl

@[simp] theorem State.ended_picture (s : State) (e : Envelope) (o : MsgOutcome) : (s.ended e o).picture = s.picture := rfl

@[simp] theorem State.ended_table (s : State) (e : Envelope) (o : MsgOutcome) : (s.ended e o).table = s.table := rfl

@[simp] theorem State.ended_gen (s : State) (e : Envelope) (o : MsgOutcome) : (s.ended e o).gen = s.gen := rfl

@[simp] theorem State.ended_lens (s : State) (e : Envelope) (o : MsgOutcome) : (s.ended e o).lens = s.lens := rfl

@[simp] theorem State.ended_place (s : State) (e : Envelope) (o : MsgOutcome) : (s.ended e o).place = s.place := rfl

@[simp] theorem State.ended_focus (s : State) (e : Envelope) (o : MsgOutcome) : (s.ended e o).focus = s.focus := rfl

@[simp] theorem State.ended_sensors (s : State) (e : Envelope) (o : MsgOutcome) : (s.ended e o).sensors = s.sensors := rfl

@[simp] theorem State.ended_light (s : State) (e : Envelope) (o : MsgOutcome) : (s.ended e o).light = s.light := rfl

@[simp] theorem State.ended_fans (s : State) (e : Envelope) (o : MsgOutcome) : (s.ended e o).fans = s.fans := rfl

@[simp] theorem State.ended_prot (s : State) (e : Envelope) (o : MsgOutcome) : (s.ended e o).prot = s.prot := rfl

/-! ### One of several -/

variable {α : Type}

@[simp] theorem PerAxis.get_set_same (p : PerAxis α) (a : Axis) (x : α) : (p.set a x).get a = x := by
  cases a <;> rfl

theorem PerAxis.get_set_ne (p : PerAxis α) {a b : Axis} (x : α) (h : b ≠ a) :
    (p.set a x).get b = p.get b := by
  cases a <;> cases b <;> simp_all [PerAxis.set, PerAxis.get]

@[simp] theorem PerSensor.get_set_same (p : PerSensor α) (i : Sensor) (x : α) : (p.set i x).get i = x := by
  cases i <;> rfl

theorem PerSensor.get_set_ne (p : PerSensor α) {i j : Sensor} (x : α) (h : j ≠ i) :
    (p.set i x).get j = p.get j := by
  cases i <;> cases j <;> simp_all [PerSensor.set, PerSensor.get]

@[simp] theorem PerFan.get_set_same (p : PerFan α) (i : Fan) (x : α) : (p.set i x).get i = x := by
  cases i <;> rfl

theorem PerFan.get_set_ne (p : PerFan α) {i j : Fan} (x : α) (h : j ≠ i) :
    (p.set i x).get j = p.get j := by
  cases i <;> cases j <;> simp_all [PerFan.set, PerFan.get]

@[simp] theorem PerFan.get_map {β : Type} (g : α → β) (p : PerFan α) (i : Fan) :
    (p.map g).get i = g (p.get i) := by
  cases i <;> rfl

@[simp] theorem PerSource.get_set_same (p : PerSource α) (i : Source) (x : α) : (p.set i x).get i = x := by
  cases i <;> rfl

theorem PerSource.get_set_ne (p : PerSource α) {i j : Source} (x : α) (h : j ≠ i) :
    (p.set i x).get j = p.get j := by
  cases i <;> cases j <;> first | rfl | exact absurd rfl h

@[simp] theorem State.axis_setAxis_same (s : State) (a : Axis) (u : AxisUnit) : (s.setAxis a u).axis a = u := by
  simp [State.axis, State.setAxis]

theorem State.axis_setAxis_ne (s : State) {a b : Axis} (u : AxisUnit) (h : b ≠ a) :
    (s.setAxis a u).axis b = s.axis b := by
  simp [State.axis, State.setAxis, PerAxis.get_set_ne _ _ h]

@[simp] theorem State.axis_raise (s : State) (e : EventFlag) (a : Axis) : (s.raise e).axis a = s.axis a := rfl

@[simp] theorem State.setAxis_profiles (s : State) (a : Axis) (u : AxisUnit) :
    (s.setAxis a u).lens.profiles = s.lens.profiles := rfl

@[simp] theorem State.sensor_setSensor_same (s : State) (i : Sensor) (u : SensorUnit) :
    (s.setSensor i u).sensor i = u := by
  simp [State.sensor, State.setSensor]

theorem State.sensor_setSensor_ne (s : State) {i j : Sensor} (u : SensorUnit) (h : j ≠ i) :
    (s.setSensor i u).sensor j = s.sensor j := by
  simp [State.sensor, State.setSensor, PerSensor.get_set_ne _ _ h]

@[simp] theorem State.fan_setFan_same (s : State) (i : Fan) (u : FanUnit) : (s.setFan i u).fan i = u := by
  simp [State.fan, State.setFan]

theorem State.fan_setFan_ne (s : State) {i j : Fan} (u : FanUnit) (h : j ≠ i) :
    (s.setFan i u).fan j = s.fan j := by
  simp [State.fan, State.setFan, PerFan.get_set_ne _ _ h]

@[simp] theorem Link.slotRecord_setSlot_same (l : Link) (i : SlotId) (r : SlotRecord) :
    (l.setSlot i r).slotRecord i = r := by
  cases i <;> rfl

theorem Link.slotRecord_setSlot_ne (l : Link) {i j : SlotId} (r : SlotRecord) (h : j ≠ i) :
    (l.setSlot i r).slotRecord j = l.slotRecord j := by
  cases i <;> cases j <;> simp_all [Link.setSlot, Link.slotRecord]

@[simp] theorem TableStore.bank_setBank_same (t : TableStore) (i : BankId) (b : Bank) :
    (t.setBank i b).bank i = b := by
  cases i <;> rfl

@[simp] theorem TableStore.loadBank_setLoadBank (t : TableStore) (b : Bank) :
    (t.setLoadBank b).loadBank = b := by
  unfold TableStore.loadBank TableStore.setLoadBank TableStore.setBank
  cases t.active <;> rfl

@[simp] theorem TableStore.activeBank_setLoadBank (t : TableStore) (b : Bank) :
    (t.setLoadBank b).activeBank = t.activeBank := by
  unfold TableStore.activeBank TableStore.setLoadBank TableStore.setBank
  cases h : t.active <;> simp [otherBank, TableStore.bank]

end Sys2Proof.Machine
end

