-- ==== Sys2Proof/Laws/Ripple.lean ====
section
/-! SUPPORT. What the operations that cross from block to block can change, said once for each of them:
`Near` for those that stay with the lens controller, the tracker and the event flags, `Ripple` for those that
may make a source pending and so deliver a level's actions. -/

namespace Sys2Proof.Machine

/-! ### The event flags only grow -/

/-- `y` comes from `x` by raising flags. -/
def Sender.Grows (x y : Sender) : Prop := ∃ es : List EventFlag, y = es.foldl Sender.raise x

theorem Sender.Grows.refl (x : Sender) : x.Grows x := ⟨[], rfl⟩

theorem Sender.Grows.trans {x y z : Sender} (h : x.Grows y) (g : y.Grows z) : x.Grows z := by
  obtain ⟨es, rfl⟩ := h
  obtain ⟨fs, rfl⟩ := g
  exact ⟨es ++ fs, by simp⟩

theorem Sender.grows_raise (x : Sender) (e : EventFlag) : x.Grows (x.raise e) := ⟨[e], rfl⟩

/-- What every raise keeps, every growth keeps. -/
theorem Sender.Grows.keeps {P : Sender → Prop} (hr : ∀ x e, P x → P (x.raise e)) {x y : Sender}
    (h : x.Grows y) (hx : P x) : P y := by
  obtain ⟨es, rfl⟩ := h
  induction es generalizing x with
  | nil => exact hx
  | cons e rest ih => exact ih (hr x e hx)

theorem Sender.raise_mask (x : Sender) (e : EventFlag) : (x.raise e).mask = x.mask := by
  unfold Sender.raise; split <;> rfl

theorem Sender.raise_laneOut (x : Sender) (e : EventFlag) : (x.raise e).laneOut = x.laneOut := by
  unfold Sender.raise; split <;> rfl

/-- A raise sets its flag and leaves the others (R170). -/
theorem Sender.raise_flags (x : Sender) (e : EventFlag) :
    (x.raise e).flags = x.flags ||| BitVec.twoPow 32 (flagBit e) := by
  unfold Sender.raise Sender.has
  split
  · rename_i h
    ext i hi
    simp only [BitVec.getElem_or, BitVec.getElem_twoPow]
    by_cases hb : i = flagBit e
    · subst hb
      rw [BitVec.getLsbD_eq_getElem hi] at h
      simp [h]
    · simp [hb]
  · rfl

/-! ### Near: within the lens controller, the tracker and the flags -/

/-- `t` differs from `s` only in the axes' motion, the placement, the focus values and flags raised. -/
structure State.Near (s t : State) : Prop where
  pending : t.pending = s.pending
  hold : t.hold = s.hold
  pins : t.pins = s.pins
  startup : t.startup = s.startup
  link : t.link = s.link
  mem : t.mem = s.mem
  intake : t.intake = s.intake
  picture : t.picture = s.picture
  table : t.table = s.table
  gen : t.gen = s.gen
  sensors : t.sensors = s.sensors
  light : t.light = s.light
  fans : t.fans = s.fans
  prot : t.prot = s.prot
  sender : s.sender.Grows t.sender
  profiles : t.lens.profiles = s.lens.profiles
  cal : ∀ a, (t.axis a).cal = (s.axis a).cal
  hostLock : ∀ a, (t.axis a).hostLock = (s.axis a).hostLock
  protLock : ∀ a, (t.axis a).protLock = (s.axis a).protLock
  focusTable : t.focus.table = s.focus.table
  upkeep : t.focus.upkeep = s.focus.upkeep
  desired : t.focus.desired = s.focus.desired

theorem State.Near.refl (s : State) : s.Near s := by
  constructor <;> first | rfl | exact Sender.Grows.refl _ | exact fun _ => rfl

theorem State.Near.trans {s t u : State} (h : s.Near t) (g : t.Near u) : s.Near u where
  pending := g.pending.trans h.pending
  hold := g.hold.trans h.hold
  pins := g.pins.trans h.pins
  startup := g.startup.trans h.startup
  link := g.link.trans h.link
  mem := g.mem.trans h.mem
  intake := g.intake.trans h.intake
  picture := g.picture.trans h.picture
  table := g.table.trans h.table
  gen := g.gen.trans h.gen
  sensors := g.sensors.trans h.sensors
  light := g.light.trans h.light
  fans := g.fans.trans h.fans
  prot := g.prot.trans h.prot
  sender := h.sender.trans g.sender
  profiles := g.profiles.trans h.profiles
  cal a := (g.cal a).trans (h.cal a)
  hostLock a := (g.hostLock a).trans (h.hostLock a)
  protLock a := (g.protLock a).trans (h.protLock a)
  focusTable := g.focusTable.trans h.focusTable
  upkeep := g.upkeep.trans h.upkeep
  desired := g.desired.trans h.desired

theorem State.near_raise (s : State) (e : EventFlag) : s.Near (s.raise e) := by
  constructor <;> first | rfl | exact Sender.grows_raise _ _ | exact fun _ => rfl

/-- An axis update that leaves the calibration and the locks. -/
theorem State.near_setAxis (s : State) (a : Axis) (u : AxisUnit)
    (hc : u.cal = (s.axis a).cal := by rfl) (hh : u.hostLock = (s.axis a).hostLock := by rfl)
    (hp : u.protLock = (s.axis a).protLock := by rfl) :
    s.Near (s.setAxis a u) := by
  constructor <;> first
    | rfl
    | exact Sender.Grows.refl _
    | (intro b
       by_cases hb : b = a
       · subst hb; simp [hc, hh, hp]
       · rw [State.axis_setAxis_ne _ _ hb])

theorem State.near_setPhase (s : State) (a : Axis) (p : Phase) : s.Near (s.setPhase a p) :=
  s.near_setAxis a _

theorem State.near_setLastEnd (s : State) (a : Axis) (x : LastEnd) : s.Near (s.setLastEnd a x) :=
  s.near_setAxis a _

theorem State.near_place (s : State) (p : Placement) : s.Near { s with place := p } := by
  constructor <;> first | rfl | exact Sender.Grows.refl _ | exact fun _ => rfl

theorem State.near_focus (s : State) (base applied : Int) (record : Option Int) :
    s.Near { s with focus := { s.focus with base := base, applied := applied, record := record } } := by
  constructor <;> first | rfl | exact Sender.Grows.refl _ | exact fun _ => rfl

theorem State.near_reportStopped (s : State) (a : Axis) (o : Owner) : s.Near (s.reportStopped a o) := by
  cases o
  · exact .refl s
  · exact s.near_place _
  · exact s.near_focus _ _ _

theorem State.near_reportCompleted (s : State) (a : Axis) (o : Owner) : s.Near (s.reportCompleted a o) := by
  cases o
  · exact s.near_raise _
  · exact s.near_place _
  · exact s.near_focus _ _ _

theorem State.near_clearHomed (s : State) (a : Axis) (p : Phase) : s.Near (s.clearHomed a p) := by
  have h := s.near_setAxis a { s.axis a with phase := p, pos := 0, ring := [] }
  cases a
  · exact h.trans (State.near_place _ _)
  · exact h.trans (State.near_place _ _)
  · exact h.trans (State.near_focus _ _ _ _)

theorem State.near_standIdle (s : State) (a : Axis) (r : HaltReason) (m : MoveRec) : s.Near (s.standIdle a r m) :=
  ((s.near_setAxis a _).trans (State.near_raise _ _)).trans (State.near_reportStopped _ _ _)

theorem State.near_standUnhomed (s : State) (a : Axis) (r : HaltReason) : s.Near (s.standUnhomed a r) :=
  ((s.near_clearHomed a _).trans (State.near_setLastEnd _ _ _)).trans (State.near_raise _ _)

theorem State.near_haltMove (s : State) (a : Axis) (r : HaltReason) (m : MoveRec) : s.Near (s.haltMove a r m) := by
  unfold State.haltMove
  split
  · exact s.near_standIdle _ _ _
  · exact s.near_setPhase _ _

theorem State.near_haltHoming (s : State) (a : Axis) (r : HaltReason) (run : HomingRun) :
    s.Near (s.haltHoming a r run) := by
  unfold State.haltHoming
  split
  · exact .refl s
  · split
    · exact s.near_standUnhomed _ _
    · exact s.near_setPhase _ _

theorem State.near_lockEffect (s : State) (a : Axis) : s.Near (s.lockEffect a) := by
  unfold State.lockEffect
  split <;> first
    | exact .refl s
    | exact s.near_haltMove _ _ _
    | exact s.near_setPhase _ _
    | exact s.near_standIdle _ _ _
    | exact s.near_haltHoming _ _ _

theorem State.near_completeMove (s : State) (a : Axis) (o : Owner) : s.Near (s.completeMove a o) :=
  (s.near_setAxis a _).trans (State.near_reportCompleted _ _ _)

theorem State.near_stopAxis (s : State) (a : Axis) : s.Near (s.stopAxis a) := by
  unfold State.stopAxis
  split <;> first
    | exact .refl s
    | exact s.near_haltMove _ _ _
    | exact s.near_standIdle _ _ _
    | exact s.near_haltHoming _ _ _

theorem State.near_homed (s : State) (a : Axis) : s.Near (s.homed a) :=
  (s.near_setAxis a _).trans (State.near_raise _ _)

theorem State.near_rezeroFocus (s : State) (a : Axis) : s.Near (s.rezeroFocus a) := by
  cases a
  · exact .refl s
  · exact .refl s
  · exact s.near_focus _ _ _

theorem State.near_handOver (s : State) (a : Axis) (target : Nat) : s.Near (s.handOver a target) := by
  cases a
  · exact s.near_place _
  · exact s.near_place _
  · exact s.near_focus _ _ _

theorem State.near_stepHoming (s : State) (a : Axis) (run : HomingRun) : s.Near (s.stepHoming a run) := by
  unfold State.stepHoming
  split
  · simp only
    split
    · exact (s.near_setAxis a _).trans (State.near_standUnhomed _ _ _)
    · exact s.near_setAxis a _
  · split
    · exact s.near_setAxis a _
    · exact .refl s

theorem State.near_switchOpens (s : State) (a : Axis) : s.Near (s.switchOpens a) := by
  unfold State.switchOpens
  split
  · split
    · exact s.near_standUnhomed _ _
    · exact s.near_homed _
    · exact .refl s
  all_goals exact .refl s

theorem State.near_enterHoming (s : State) (a : Axis) : s.Near (s.enterHoming a) :=
  (s.near_clearHomed a _).trans (State.near_setAxis _ a _)

/-! ### Delivery (R153) -/

/-- Setting or clearing a protection lock reaches only that axis's lock, its motion and what that ends. -/
theorem State.setProtLock_near (s : State) (a : Axis) (on : Bool) :
    (s.setAxis a { s.axis a with protLock := on }).Near (s.setProtLock a on) := by
  unfold State.setProtLock
  simp only
  split
  · exact State.near_lockEffect _ _
  · exact .refl _

theorem State.setProtLock_protLock (s : State) (a b : Axis) (on : Bool) :
    ((s.setProtLock a on).axis b).protLock = if b = a then on else (s.axis b).protLock := by
  rw [(s.setProtLock_near a on).protLock b]
  split
  · subst_vars; simp
  · rw [State.axis_setAxis_ne _ _ (by assumption)]

theorem State.setProtLock_hostLock (s : State) (a b : Axis) (on : Bool) :
    ((s.setProtLock a on).axis b).hostLock = (s.axis b).hostLock := by
  rw [(s.setProtLock_near a on).hostLock b]
  by_cases h : b = a
  · subst h; simp
  · rw [State.axis_setAxis_ne _ _ h]

theorem State.setProtLock_cal (s : State) (a b : Axis) (on : Bool) :
    ((s.setProtLock a on).axis b).cal = (s.axis b).cal := by
  rw [(s.setProtLock_near a on).cal b]
  by_cases h : b = a
  · subst h; simp
  · rw [State.axis_setAxis_ne _ _ h]

@[simp] theorem State.setProtLock_pending (s : State) (a : Axis) (on : Bool) :
    (s.setProtLock a on).pending = s.pending := (s.setProtLock_near a on).pending

@[simp] theorem State.setProtLock_hold (s : State) (a : Axis) (on : Bool) :
    (s.setProtLock a on).hold = s.hold := (s.setProtLock_near a on).hold

@[simp] theorem State.setProtLock_pins (s : State) (a : Axis) (on : Bool) :
    (s.setProtLock a on).pins = s.pins := (s.setProtLock_near a on).pins

@[simp] theorem State.setProtLock_startup (s : State) (a : Axis) (on : Bool) :
    (s.setProtLock a on).startup = s.startup := (s.setProtLock_near a on).startup

@[simp] theorem State.setProtLock_link (s : State) (a : Axis) (on : Bool) :
    (s.setProtLock a on).link = s.link := (s.setProtLock_near a on).link

@[simp] theorem State.setProtLock_mem (s : State) (a : Axis) (on : Bool) :
    (s.setProtLock a on).mem = s.mem := (s.setProtLock_near a on).mem

@[simp] theorem State.setProtLock_intake (s : State) (a : Axis) (on : Bool) :
    (s.setProtLock a on).intake = s.intake := (s.setProtLock_near a on).intake

@[simp] theorem State.setProtLock_picture (s : State) (a : Axis) (on : Bool) :
    (s.setProtLock a on).picture = s.picture := (s.setProtLock_near a on).picture

@[simp] theorem State.setProtLock_table (s : State) (a : Axis) (on : Bool) :
    (s.setProtLock a on).table = s.table := (s.setProtLock_near a on).table

@[simp] theorem State.setProtLock_gen (s : State) (a : Axis) (on : Bool) :
    (s.setProtLock a on).gen = s.gen := (s.setProtLock_near a on).gen

@[simp] theorem State.setProtLock_sensors (s : State) (a : Axis) (on : Bool) :
    (s.setProtLock a on).sensors = s.sensors := (s.setProtLock_near a on).sensors

@[simp] theorem State.setProtLock_light (s : State) (a : Axis) (on : Bool) :
    (s.setProtLock a on).light = s.light := (s.setProtLock_near a on).light

@[simp] theorem State.setProtLock_fans (s : State) (a : Axis) (on : Bool) :
    (s.setProtLock a on).fans = s.fans := (s.setProtLock_near a on).fans

@[simp] theorem State.setProtLock_prot (s : State) (a : Axis) (on : Bool) :
    (s.setProtLock a on).prot = s.prot := (s.setProtLock_near a on).prot

@[simp] theorem State.setProtLock_profiles (s : State) (a : Axis) (on : Bool) :
    (s.setProtLock a on).lens.profiles = s.lens.profiles := (s.setProtLock_near a on).profiles

@[simp] theorem State.setProtLock_focusTable (s : State) (a : Axis) (on : Bool) :
    (s.setProtLock a on).focus.table = s.focus.table := (s.setProtLock_near a on).focusTable

@[simp] theorem State.setProtLock_upkeep (s : State) (a : Axis) (on : Bool) :
    (s.setProtLock a on).focus.upkeep = s.focus.upkeep := (s.setProtLock_near a on).upkeep

@[simp] theorem State.setProtLock_desired (s : State) (a : Axis) (on : Bool) :
    (s.setProtLock a on).focus.desired = s.focus.desired := (s.setProtLock_near a on).desired

/-- What a delivery writes at three of its consumers, before the locks. -/
def State.delivering (s : State) : State :=
  let a := s.prot.table.actions s.prot.c
  { s with light := s.light.deliver a.limit, fans := s.fans.deliver a.floor a.capLifted,
           picture := s.picture.deliver a.mute }

theorem State.deliver_eq (s : State) :
    s.deliver = ((s.delivering.setProtLock .v (s.prot.table.actions s.prot.c).lensLock).setProtLock .h
      (s.prot.table.actions s.prot.c).lensLock).setProtLock .f (s.prot.table.actions s.prot.c).lensLock := rfl

/-- A delivery is the three consumers' updates and the lock set or cleared on every axis. -/
theorem State.deliver_protLock (s : State) (a : Axis) :
    (s.deliver.axis a).protLock = (s.prot.table.actions s.prot.c).lensLock := by
  rw [State.deliver_eq]
  cases a <;> simp [State.setProtLock_protLock]

/-! ### Ripple: with deliveries -/

/-- The protection unit after an acceptance (R150). -/
def Protection.accepted (p : Protection) : Protection :=
  if p.c < p.topLevel then { p with c := p.topLevel, cause := p.causeAt p.topLevel } else p

/-- The protection unit after a source is made pending (R148). -/
def Protection.pended (p : Protection) (x : Source) : Protection :=
  if p.pending.get x then p else Protection.accepted { p with pending := p.pending.set x true }

/-- What can happen to the protection unit in a ripple: an acceptance, or a source becoming pending. -/
def Protection.react (p : Protection) : Option Source → Protection
  | none => p.accepted
  | some x => p.pended x

/-- `t` comes from `s` by operations that may make sources pending: beside what `Near` allows, sources become
pending, C rises, and actions are delivered to the light unit, the fans, the picture and the locks; the
actions in force stay those of C. -/
structure State.Ripple (s t : State) : Prop where
  pending : t.pending = s.pending
  hold : t.hold = s.hold
  pins : t.pins = s.pins
  startup : t.startup = s.startup
  link : t.link = s.link
  mem : t.mem = s.mem
  intake : t.intake = s.intake
  table : t.table = s.table
  gen : t.gen = s.gen
  sensors : t.sensors = s.sensors
  sender : s.sender.Grows t.sender
  profiles : t.lens.profiles = s.lens.profiles
  cal : ∀ a, (t.axis a).cal = (s.axis a).cal
  hostLock : ∀ a, (t.axis a).hostLock = (s.axis a).hostLock
  focusTable : t.focus.table = s.focus.table
  upkeep : t.focus.upkeep = s.focus.upkeep
  desired : t.focus.desired = s.focus.desired
  levels : t.prot.levels = s.prot.levels
  actions : t.prot.table = s.prot.table
  pend : ∀ x, s.prot.pending.get x = true → t.prot.pending.get x = true
  rises : s.prot.c ≤ t.prot.c
  prot : ∃ xs : List (Option Source), t.prot = xs.foldl Protection.react s.prot
  light : ∃ cs : List Nat, t.light = cs.foldl (fun x c => x.deliver (s.prot.table.actions c).limit) s.light
  fans : ∃ cs : List Nat, t.fans
    = cs.foldl (fun x c => x.deliver (s.prot.table.actions c).floor (s.prot.table.actions c).capLifted) s.fans
  picture : ∃ cs : List Nat, t.picture
    = cs.foldl (fun x c => x.deliver (s.prot.table.actions c).mute) s.picture
  inForce : s.ActionsInForce → t.ActionsInForce

theorem State.Near.ripple {s t : State} (h : s.Near t) : s.Ripple t where
  pending := h.pending
  hold := h.hold
  pins := h.pins
  startup := h.startup
  link := h.link
  mem := h.mem
  intake := h.intake
  table := h.table
  gen := h.gen
  sensors := h.sensors
  sender := h.sender
  profiles := h.profiles
  cal := h.cal
  hostLock := h.hostLock
  focusTable := h.focusTable
  upkeep := h.upkeep
  desired := h.desired
  levels := by rw [h.prot]
  actions := by rw [h.prot]
  pend x hx := by rw [h.prot]; exact hx
  rises := by rw [h.prot]
  prot := ⟨[], h.prot⟩
  light := ⟨[], h.light⟩
  fans := ⟨[], h.fans⟩
  picture := ⟨[], h.picture⟩
  inForce g := by
    constructor
    · rw [h.light, h.prot]; exact g.limit
    · rw [h.fans, h.prot]; exact g.floor
    · rw [h.fans, h.prot]; exact g.lifted
    · intro a; rw [h.protLock, h.prot]; exact g.lock a
    · rw [h.picture, h.prot]; exact g.mute

theorem State.Ripple.refl (s : State) : s.Ripple s := (State.Near.refl s).ripple

theorem State.Ripple.trans {s t u : State} (h : s.Ripple t) (g : t.Ripple u) : s.Ripple u where
  pending := g.pending.trans h.pending
  hold := g.hold.trans h.hold
  pins := g.pins.trans h.pins
  startup := g.startup.trans h.startup
  link := g.link.trans h.link
  mem := g.mem.trans h.mem
  intake := g.intake.trans h.intake
  table := g.table.trans h.table
  gen := g.gen.trans h.gen
  sensors := g.sensors.trans h.sensors
  sender := h.sender.trans g.sender
  profiles := g.profiles.trans h.profiles
  cal a := (g.cal a).trans (h.cal a)
  hostLock a := (g.hostLock a).trans (h.hostLock a)
  focusTable := g.focusTable.trans h.focusTable
  upkeep := g.upkeep.trans h.upkeep
  desired := g.desired.trans h.desired
  levels := g.levels.trans h.levels
  actions := g.actions.trans h.actions
  pend x hx := g.pend x (h.pend x hx)
  rises := h.rises.trans g.rises
  prot := by
    obtain ⟨l, hl⟩ := h.prot
    obtain ⟨k, hk⟩ := g.prot
    exact ⟨l ++ k, by rw [hk, hl, List.foldl_append]⟩
  light := by
    obtain ⟨l, hl⟩ := h.light
    obtain ⟨k, hk⟩ := g.light
    exact ⟨l ++ k, by rw [hk, hl, List.foldl_append, h.actions]⟩
  fans := by
    obtain ⟨l, hl⟩ := h.fans
    obtain ⟨k, hk⟩ := g.fans
    exact ⟨l ++ k, by rw [hk, hl, List.foldl_append, h.actions]⟩
  picture := by
    obtain ⟨l, hl⟩ := h.picture
    obtain ⟨k, hk⟩ := g.picture
    exact ⟨l ++ k, by rw [hk, hl, List.foldl_append, h.actions]⟩
  inForce k := g.inForce (h.inForce k)

@[simp] theorem State.deliver_light (s : State) :
    s.deliver.light = s.light.deliver (s.prot.table.actions s.prot.c).limit := by
  simp [State.deliver_eq, State.delivering]

@[simp] theorem State.deliver_fans (s : State) :
    s.deliver.fans = s.fans.deliver (s.prot.table.actions s.prot.c).floor
      (s.prot.table.actions s.prot.c).capLifted := by
  simp [State.deliver_eq, State.delivering]

@[simp] theorem State.deliver_picture (s : State) :
    s.deliver.picture = s.picture.deliver (s.prot.table.actions s.prot.c).mute := by
  simp [State.deliver_eq, State.delivering]

@[simp] theorem State.deliver_prot (s : State) : s.deliver.prot = s.prot := by
  simp [State.deliver_eq, State.delivering]

/-- A delivery puts the actions of the current level in force at all four consumers (R153). -/
theorem State.deliver_inForce (s : State) : s.deliver.ActionsInForce where
  limit := by simp [Light.deliver]
  floor := by simp [Fans.deliver]
  lifted := by simp [Fans.deliver]
  lock a := by simp [State.deliver_protLock]
  mute := by
    simp only [State.deliver_picture, State.deliver_prot]
    unfold Picture.deliver Picture.blacken
    split <;> simp_all

theorem State.ripple_deliver (s : State) : s.Ripple s.deliver where
  pending := by simp [State.deliver_eq, State.delivering]
  hold := by simp [State.deliver_eq, State.delivering]
  pins := by simp [State.deliver_eq, State.delivering]
  startup := by simp [State.deliver_eq, State.delivering]
  link := by simp [State.deliver_eq, State.delivering]
  mem := by simp [State.deliver_eq, State.delivering]
  intake := by simp [State.deliver_eq, State.delivering]
  table := by simp [State.deliver_eq, State.delivering]
  gen := by simp [State.deliver_eq, State.delivering]
  sensors := by simp [State.deliver_eq, State.delivering]
  sender := by
    rw [State.deliver_eq]
    refine Sender.Grows.trans ?_ (State.setProtLock_near _ .f _).sender
    refine Sender.Grows.trans ?_ (State.setProtLock_near _ .h _).sender
    exact (State.setProtLock_near s.delivering .v _).sender
  profiles := by simp [State.deliver_eq, State.delivering]
  cal a := by rw [State.deliver_eq]; simp only [State.setProtLock_cal]; rfl
  hostLock a := by rw [State.deliver_eq]; simp only [State.setProtLock_hostLock]; rfl
  focusTable := by simp [State.deliver_eq, State.delivering]
  upkeep := by simp [State.deliver_eq, State.delivering]
  desired := by simp [State.deliver_eq, State.delivering]
  levels := by simp
  actions := by simp
  pend x hx := by simpa using hx
  rises := by simp
  prot := ⟨[], s.deliver_prot⟩
  light := ⟨[s.prot.c], s.deliver_light⟩
  fans := ⟨[s.prot.c], s.deliver_fans⟩
  picture := ⟨[s.prot.c], s.deliver_picture⟩
  inForce _ := s.deliver_inForce

/-! ### Acceptance and pending sources (R148, R150) -/

/-- Raising C to the cause's level with its event, before the delivery. -/
theorem State.ripple_accept (s : State) : s.Ripple s.accept := by
  unfold State.accept
  split
  · rename_i h
    have hd := State.ripple_deliver (State.raise { s with prot := { s.prot with
      c := s.prot.topLevel, cause := s.prot.causeAt s.prot.topLevel } } .levelChanged)
    exact
      { pending := hd.pending, hold := hd.hold, pins := hd.pins, startup := hd.startup, link := hd.link
        mem := hd.mem, intake := hd.intake, table := hd.table, gen := hd.gen, sensors := hd.sensors
        sender := (Sender.grows_raise _ _).trans hd.sender
        profiles := hd.profiles, cal := hd.cal, hostLock := hd.hostLock, focusTable := hd.focusTable
        upkeep := hd.upkeep, desired := hd.desired, levels := hd.levels, actions := hd.actions
        pend := hd.pend, rises := h.le.trans hd.rises
        prot := ⟨[none], by
          rw [State.deliver_prot]
          simp [Protection.react, Protection.accepted, h]⟩
        light := hd.light, fans := hd.fans, picture := hd.picture
        inForce := fun _ => State.deliver_inForce _ }
  · exact .refl s

/-- An acceptance at the protection unit (R150). -/
theorem State.accept_prot (s : State) : s.accept.prot = s.prot.accepted := by
  unfold State.accept Protection.accepted
  split
  · rw [State.deliver_prot]; rfl
  · rfl

/-- A source made pending at the protection unit (R148). -/
theorem State.makePending_prot (s : State) (x : Source) : (s.makePending x).prot = s.prot.pended x := by
  unfold State.makePending Protection.pended
  split
  · rfl
  · rw [State.accept_prot]; rfl

theorem State.ripple_makePending (s : State) (x : Source) : s.Ripple (s.makePending x) := by
  have hprot := s.makePending_prot x
  unfold State.makePending at hprot ⊢
  split at hprot
  · rw [if_pos (by assumption)]; exact .refl s
  · rw [if_neg (by assumption)]
    have ha := State.ripple_accept (State.raise { s with prot := { s.prot with
      pending := s.prot.pending.set x true } } .sourcePending)
    exact
      { pending := ha.pending, hold := ha.hold, pins := ha.pins, startup := ha.startup, link := ha.link
        mem := ha.mem, intake := ha.intake, table := ha.table, gen := ha.gen, sensors := ha.sensors
        sender := (Sender.grows_raise _ _).trans ha.sender
        profiles := ha.profiles, cal := ha.cal, hostLock := ha.hostLock, focusTable := ha.focusTable
        upkeep := ha.upkeep, desired := ha.desired, levels := ha.levels, actions := ha.actions
        pend := fun y hy => ha.pend y (by
          by_cases hxy : y = x
          · subst hxy; simp
          · simpa [PerSource.get_set_ne _ _ hxy] using hy)
        rises := ha.rises, prot := ⟨[some x], hprot⟩, light := ha.light, fans := ha.fans, picture := ha.picture
        inForce := fun g => ha.inForce ⟨g.limit, g.floor, g.lifted, g.lock, g.mute⟩ }

/-! ### Axis faults and moves -/

theorem State.ripple_enterFault (s : State) (a : Axis) (r : FaultReason) : s.Ripple (s.enterFault a r) := by
  unfold State.enterFault
  split
  · exact .refl s
  · exact (((s.near_clearHomed a _).trans (State.near_setLastEnd _ _ _)).trans ((State.near_raise _ _).trans
      (State.near_raise _ _))).ripple.trans (State.ripple_makePending _ _)
  all_goals
    exact (((s.near_clearHomed a _).trans (State.near_setLastEnd _ _ _)).trans
      (State.near_raise _ _)).ripple.trans (State.ripple_makePending _ _)

theorem State.ripple_checkDriver (s : State) (a : Axis) : s.Ripple (s.checkDriver a) := by
  unfold State.checkDriver
  split
  · exact s.ripple_enterFault _ _
  · exact .refl s

theorem State.ripple_beginLeg (s : State) (a : Axis) (m : MoveRec) (n : Nat) : s.Ripple (s.beginLeg a m n) :=
  (s.near_setAxis a _).ripple.trans (State.ripple_checkDriver _ _)

theorem State.ripple_beginMove (s : State) (a : Axis) (target : Nat) (o : Owner) (n : Nat) :
    s.Ripple (s.beginMove a target o n) := by
  unfold State.beginMove
  simp only
  split
  · exact (s.near_completeMove _ _).ripple
  · exact s.ripple_beginLeg _ _ _

theorem State.ripple_stand (s : State) (a : Axis) (intent : StopIntent) (m : MoveRec) :
    s.Ripple (s.stand a intent m) := by
  unfold State.stand
  split
  · exact (s.near_standIdle _ _ _).ripple
  · exact (s.near_setPhase _ _).ripple
  · split
    · exact (s.near_standIdle _ _ _).ripple
    · exact s.ripple_beginMove _ _ _ _

theorem State.ripple_decelerate (s : State) (a : Axis) (intent : StopIntent) (m : MoveRec) :
    s.Ripple (s.decelerate a intent m) := by
  unfold State.decelerate
  split
  · exact s.ripple_stand _ _ _
  · exact (s.near_setPhase _ _).ripple

theorem State.ripple_legOver (s : State) (a : Axis) (m : MoveRec) : s.Ripple (s.legOver a m) := by
  unfold State.legOver
  split
  · exact s.ripple_beginLeg _ _ _
  · exact (s.near_completeMove _ _).ripple

theorem State.ripple_resumeMove (s : State) (a : Axis) (m : MoveRec) : s.Ripple (s.resumeMove a m) := by
  unfold State.resumeMove
  split
  · split
    · exact s.ripple_legOver _ _
    · exact s.ripple_beginLeg _ _ _
  · exact s.ripple_legOver _ _

theorem State.ripple_stepAxis (s : State) (a : Axis) : s.Ripple (s.stepAxis a) := by
  unfold State.stepAxis
  split
  · split
    · unfold State.stepMoving
      simp only
      split
      · exact s.ripple_legOver _ _
      · split
        · exact (s.near_setAxis a _).ripple.trans (State.ripple_legOver _ _ _)
        · exact (s.near_setAxis a _).ripple
    · exact .refl s
  · split
    · unfold State.stepStopping
      simp only
      split
      · exact s.ripple_stand _ _ _
      · split
        · exact (s.near_setAxis a _).ripple.trans (State.ripple_stand _ _ _ _)
        · exact (s.near_setAxis a _).ripple
    · exact .refl s
  · exact (s.near_stepHoming _ _).ripple
  all_goals exact .refl s

theorem State.ripple_beginHomingLeg (s : State) (a : Axis) (p : HomingPhase) : s.Ripple (s.beginHomingLeg a p) :=
  (s.near_setAxis a _).ripple.trans (State.ripple_checkDriver _ _)

theorem State.ripple_closeOnMove (s : State) (a : Axis) (m : MoveRec) : s.Ripple (s.closeOnMove a m) := by
  unfold State.closeOnMove
  simp only
  have h : ∀ e : LastEnd, s.Near (((s.setAxis a { s.axis a with phase := .idle, pos := 0, lastEnd := e
      }).reportStopped a m.owner).rezeroFocus a) := fun e =>
    ((s.near_setAxis a _).trans (State.near_reportStopped _ _ _)).trans (State.near_rezeroFocus _ _)
  split
  · exact ((h _).trans (State.near_raise _ _)).ripple.trans (State.ripple_makePending _ _)
  · exact ((h _).trans (State.near_raise _ _)).ripple

theorem State.ripple_switchCloses (s : State) (a : Axis) : s.Ripple (s.switchCloses a) := by
  unfold State.switchCloses
  split
  · exact s.ripple_closeOnMove _ _
  · exact s.ripple_closeOnMove _ _
  · split
    · exact (s.near_standUnhomed _ _).ripple
    · exact s.ripple_beginHomingLeg _ _
    · exact .refl s
  all_goals exact .refl s

theorem State.ripple_boundReached (s : State) (a : Axis) : s.Ripple (s.boundReached a) := by
  unfold State.boundReached
  split
  · split
    · exact .refl s
    · split
      · exact .refl s
      · exact (((s.near_clearHomed a _).trans (State.near_setLastEnd _ _ _)).trans
          (State.near_raise _ _)).ripple.trans (State.ripple_makePending _ _)
  all_goals exact .refl s

theorem State.ripple_legTimeout (s : State) (a : Axis) : s.Ripple (s.legTimeout a) := by
  unfold State.legTimeout
  split <;> first | exact .refl s | exact s.ripple_enterFault _ _

theorem State.ripple_homeAxes (s : State) (as : List Axis) : s.Ripple (s.homeAxes as) := by
  have first : ∀ (l : List Axis) (t : State), t.Ripple (l.foldl State.firstHomingLeg t) := by
    intro l
    induction l with
    | nil => exact fun t => .refl t
    | cons b rest ih =>
      intro t
      have : t.Ripple (t.firstHomingLeg b) := by
        unfold State.firstHomingLeg
        split
        · exact t.ripple_checkDriver _
        · exact .refl t
      exact this.trans (ih _)
  have enter : ∀ (l : List Axis) (t : State), t.Near (l.foldl State.enterHoming t) := by
    intro l
    induction l with
    | nil => exact fun t => .refl t
    | cons b rest ih => exact fun t => (t.near_enterHoming b).trans (ih _)
  exact (enter as s).ripple.trans (first as _)

theorem State.ripple_requestPlacement (s : State) (a : Axis) (target : Nat) :
    s.Ripple (s.requestPlacement a target) := by
  unfold State.requestPlacement
  simp only
  split
  · exact .refl s
  · split
    · exact s.ripple_beginMove _ _ _ _
    · split
      · exact s.ripple_decelerate _ _ _
      · exact .refl s
    · split
      · exact s.ripple_beginMove _ _ _ _
      · exact .refl s
    · split
      · exact (s.near_setPhase _ _).ripple
      · exact .refl s
    · split
      · exact (s.near_setPhase _ _).ripple
      · exact .refl s
    all_goals exact .refl s

theorem State.ripple_startPlacement (s : State) (ox oy : Int) : s.Ripple (s.startPlacement ox oy) :=
  ((s.near_place _).ripple.trans (State.ripple_requestPlacement _ _ _)).trans
    (State.ripple_requestPlacement _ _ _)

theorem State.ripple_startUpkeep (s : State) : s.Ripple s.startUpkeep :=
  (s.near_focus s.focus.base s.focus.applied (some s.focus.desired)).ripple.trans
    (State.ripple_beginMove _ _ _ _ _)

end Sys2Proof.Machine
end

