-- ==== Sys2Proof/Laws/Delivery.lean ====
section
/-! SUPPORT. What any number of deliveries leaves alone at the picture, the light unit and the fans; and the
level that an acceptance finds. -/

namespace Sys2Proof.Machine

/-! ### The picture -/

/-- `y` comes from `x` by deliveries: only the PROT cause changes, and a frame in flight can only turn black. -/
structure Picture.Delivered (x y : Picture) : Prop where
  mode : y.mode = x.mode
  orientation : y.orientation = x.orientation
  mutes : y.mutes = { x.mutes with prot := y.mutes.prot }
  lastLight : y.lastLight = x.lastLight
  outParity : y.outParity = x.outParity
  panelOut : y.panelOut = x.panelOut
  frame : y.frame = x.frame ∨ y.frame = x.frame.map fun f => { f with black := true }
  black : y.mutes.prot = true → x.mutes.prot = true ∧ y.frame = x.frame
    ∨ y.frame = x.frame.map fun f => { f with black := true }

theorem Picture.delivered_one (x : Picture) (on : Bool) : x.Delivered (x.deliver on) := by
  cases on
  · exact ⟨rfl, rfl, rfl, rfl, rfl, rfl, .inl rfl, by simp [Picture.deliver]⟩
  · exact ⟨rfl, rfl, rfl, rfl, rfl, rfl, .inr rfl, fun _ => .inr rfl⟩

theorem Picture.Delivered.trans {x y z : Picture} (h : x.Delivered y) (g : y.Delivered z) : x.Delivered z where
  mode := g.mode.trans h.mode
  orientation := g.orientation.trans h.orientation
  mutes := by rw [g.mutes, h.mutes]
  lastLight := g.lastLight.trans h.lastLight
  outParity := g.outParity.trans h.outParity
  panelOut := g.panelOut.trans h.panelOut
  frame := by
    rcases g.frame with a | a <;> rcases h.frame with b | b <;> rw [a, b]
    · exact .inl rfl
    · exact .inr rfl
    · exact .inr rfl
    · right; cases x.frame <;> rfl
  black := by
    intro k
    rcases g.black k with ⟨a, b⟩ | b
    · rw [b]; exact h.black a
    · right
      rcases h.frame with c | c <;> rw [b, c]
      cases x.frame <;> rfl

theorem Picture.delivered (x : Picture) (g : Nat → Bool) (ms : List Nat) :
    x.Delivered (ms.foldl (fun x c => x.deliver (g c)) x) := by
  induction ms generalizing x with
  | nil => exact ⟨rfl, rfl, rfl, rfl, rfl, rfl, .inl rfl, fun k => .inl ⟨k, rfl⟩⟩
  | cons m ms ih => exact (x.delivered_one (g m)).trans (ih _)

theorem State.Ripple.delivered {s t : State} (h : s.Ripple t) : s.picture.Delivered t.picture := by
  obtain ⟨ms, e⟩ := h.picture
  rw [e]
  exact Picture.delivered _ _ ms

/-- A frame that is black stays black. -/
theorem Picture.Delivered.keepsBlack {x y : Picture} (h : x.Delivered y)
    (hx : ∀ f, x.frame = some f → f.black = true) : ∀ f, y.frame = some f → f.black = true := by
  intro f hf
  rcases h.frame with e | e <;> rw [e] at hf
  · exact hx f hf
  · simp only [Option.map_eq_some_iff] at hf
    obtain ⟨_, _, rfl⟩ := hf
    rfl

/-! ### The light unit -/

/-- `y` comes from `x` by deliveries: only the limit and the drive level change, and the drive level never
rises. -/
structure Light.Delivered (x y : Light) : Prop where
  rest : y = { x with limit := y.limit, d := y.d }
  d : y.d ≤ x.d
  within : y = x ∨ y.d ≤ y.limit

theorem Light.delivered (x : Light) (g : Nat → Nat) (ls : List Nat) :
    x.Delivered (ls.foldl (fun x c => x.deliver (g c)) x) := by
  induction ls generalizing x with
  | nil => exact ⟨rfl, le_rfl, .inl rfl⟩
  | cons l ls ih =>
    have h := ih (x.deliver (g l))
    refine ⟨?_, h.d.trans (Nat.min_le_left _ _), ?_⟩
    · rw [List.foldl_cons]
      conv => lhs; rw [h.rest]
      rfl
    · right
      rcases h.within with e | e
      · rw [List.foldl_cons, e]; exact Nat.min_le_right _ _
      · exact e

theorem State.Ripple.lightDelivered {s t : State} (h : s.Ripple t) : s.light.Delivered t.light := by
  obtain ⟨ls, e⟩ := h.light
  rw [e]
  exact Light.delivered _ _ ls

/-! ### The fans -/

/-- A fan after deliveries: what it is measured by stays, and only its duty changes, but for a STOPPED fan, which
may have entered SPINUP (the table of R141). -/
structure FanUnit.Delivered (u v : FanUnit) : Prop where
  record : v.record = u.record
  history : v.history = u.history
  count : v.count = u.count
  speed : v.speed = u.speed
  stallRun : v.stallRun = u.stallRun
  recovery : v.recovery = u.recovery
  lastCurve : v.lastCurve = u.lastCurve
  lastFF : v.lastFF = u.lastFF
  lastDemand : v.lastDemand = u.lastDemand
  readingUsed : v.readingUsed = u.readingUsed
  running : v.state = .running ↔ u.state = .running
  stalled : v.state = .stalled ↔ u.state = .stalled
  change : v = u ∨ ((u.state = .running ∨ u.state = .stalled) ∧ v = { u with duty := v.duty })
    ∨ (u.state = .stopped ∧ v = { u with state := .spinup, duty := 1000, spin := 0 })

theorem FanUnit.Delivered.refl (u : FanUnit) : u.Delivered u :=
  ⟨rfl, rfl, rfl, rfl, rfl, rfl, rfl, rfl, rfl, rfl, .rfl, .rfl, .inl rfl⟩

theorem FanUnit.Delivered.trans {u v w : FanUnit} (h : u.Delivered v) (g : v.Delivered w) : u.Delivered w :=
  ⟨g.record.trans h.record, g.history.trans h.history, g.count.trans h.count, g.speed.trans h.speed,
    g.stallRun.trans h.stallRun, g.recovery.trans h.recovery, g.lastCurve.trans h.lastCurve,
    g.lastFF.trans h.lastFF, g.lastDemand.trans h.lastDemand, g.readingUsed.trans h.readingUsed,
    g.running.trans h.running, g.stalled.trans h.stalled, by
      rcases h.change with rfl | ⟨hs, e⟩ | ⟨hs, rfl⟩
      · exact g.change
      · rcases g.change with rfl | ⟨_, f⟩ | ⟨gs, _⟩
        · exact .inr (.inl ⟨hs, e⟩)
        · exact .inr (.inl ⟨hs, by rw [f, e]⟩)
        · rw [e] at gs; simp only at gs; rcases hs with hs | hs <;> rw [hs] at gs <;> cases gs
      · rcases g.change with rfl | ⟨gs, _⟩ | ⟨gs, _⟩
        · exact .inr (.inr ⟨hs, rfl⟩)
        · rcases gs with gs | gs <;> cases gs
        · cases gs⟩

theorem FanUnit.delivered_meetFloor (u : FanUnit) (floor : Nat) : u.Delivered (u.meetFloor floor) := by
  unfold FanUnit.meetFloor
  split
  · split <;> constructor <;> simp_all
  · exact .refl u

theorem Fans.deliver_get (x : Fans) (floor : Nat) (lifted : Bool) (i : Fan) :
    (x.deliver floor lifted).units.get i = (x.units.get i).meetFloor floor := by
  cases i <;> rfl

/-- `y` comes from `x` by deliveries. -/
structure Fans.Delivered (x y : Fans) : Prop where
  quiet : y.quiet = x.quiet
  curveSet : y.curveSet = x.curveSet
  reReport : y.reReport = x.reReport
  units : ∀ i, (x.units.get i).Delivered (y.units.get i)

theorem Fans.delivered (x : Fans) (g : Nat → Nat) (k : Nat → Bool) (fs : List Nat) :
    x.Delivered (fs.foldl (fun x c => x.deliver (g c) (k c)) x) := by
  induction fs generalizing x with
  | nil => exact ⟨rfl, rfl, rfl, fun i => .refl _⟩
  | cons p fs ih =>
    have h := ih (x.deliver (g p) (k p))
    refine ⟨h.quiet, h.curveSet, h.reReport, fun i => ?_⟩
    refine FanUnit.Delivered.trans ?_ (h.units i)
    rw [Fans.deliver_get]
    exact FanUnit.delivered_meetFloor _ _

theorem State.Ripple.fansDelivered {s t : State} (h : s.Ripple t) : s.fans.Delivered t.fans := by
  obtain ⟨fs, e⟩ := h.fans
  rw [e]
  exact Fans.delivered _ _ _ fs

/-! ### The level an acceptance finds (R150) -/

theorem mem_allSources (x : Source) : x ∈ allSources := by cases x <;> decide

/-- The levels of pending sources in a list, folded: at least each of them, and one of them or the start. -/
theorem foldl_level (p : Protection) (l : List Source) (m : Nat) :
    let n := l.foldl (fun m x => if p.pending.get x then max m (p.levels.get x) else m) m
    m ≤ n ∧ (∀ x ∈ l, p.pending.get x = true → p.levels.get x ≤ n)
      ∧ (n = m ∨ ∃ x ∈ l, p.pending.get x = true ∧ p.levels.get x = n) := by
  induction l generalizing m with
  | nil => simp
  | cons y l ih =>
    simp only [List.foldl_cons]
    by_cases hy : p.pending.get y = true
    · simp only [hy, if_true]
      obtain ⟨h1, h2, h3⟩ := ih (max m (p.levels.get y))
      refine ⟨(le_max_left _ _).trans h1, ?_, ?_⟩
      · intro x hx hp
        rcases List.mem_cons.1 hx with rfl | hx
        · exact (le_max_right _ _).trans h1
        · exact h2 x hx hp
      · rcases h3 with h3 | ⟨x, hx, hp, e⟩
        · rcases le_total m (p.levels.get y) with hm | hm
          · exact .inr ⟨y, by simp, hy, by rw [h3, max_eq_right hm]⟩
          · exact .inl (by rw [h3, max_eq_left hm])
        · exact .inr ⟨x, by simp [hx], hp, e⟩
    · simp only [hy]
      obtain ⟨h1, h2, h3⟩ := ih m
      refine ⟨h1, ?_, ?_⟩
      · intro x hx hp
        rcases List.mem_cons.1 hx with rfl | hx
        · exact absurd hp hy
        · exact h2 x hx hp
      · rcases h3 with h3 | ⟨x, hx, hp, e⟩
        · exact .inl h3
        · exact .inr ⟨x, by simp [hx], hp, e⟩

/-- No pending source asks for more than the top level. -/
theorem Protection.le_topLevel (p : Protection) {x : Source} (h : p.pending.get x = true) :
    p.levels.get x ≤ p.topLevel :=
  (foldl_level p allSources 0).2.1 x (mem_allSources x) h

/-- The top level is a pending source's, unless it is 0. -/
theorem Protection.topLevel_attained (p : Protection) (h : p.topLevel ≠ 0) :
    ∃ x, p.pending.get x = true ∧ p.levels.get x = p.topLevel := by
  rcases (foldl_level p allSources 0).2.2 with e | ⟨x, _, hp, e⟩
  · exact absurd e h
  · exact ⟨x, hp, e⟩

/-- The cause of a level that a pending source asks for is the lowest-numbered one that does. -/
theorem Protection.causeAt_eq (p : Protection) (c : Nat) (h : ∃ x, p.pending.get x = true ∧ p.levels.get x = c) :
    ∃ y, p.causeAt c = .source y ∧ p.pending.get y = true ∧ p.levels.get y = c
      ∧ ∀ z, sourceNumber z < sourceNumber y → p.pending.get z = true → p.levels.get z ≠ c := by
  unfold Protection.causeAt
  cases hf : allSources.find? (fun x => p.pending.get x && p.levels.get x == c) with
  | none =>
    obtain ⟨x, hp, hl⟩ := h
    have := List.find?_eq_none.1 hf x (mem_allSources x)
    simp [hp, hl] at this
  | some y =>
    have hy := List.find?_some hf
    simp only [Bool.and_eq_true, beq_iff_eq] at hy
    refine ⟨y, rfl, hy.1, hy.2, ?_⟩
    intro z hz hp hl
    obtain ⟨_, l, r, e, hn⟩ := List.find?_eq_some_iff_append.1 hf
    have hz' : z ∈ l := by
      have hm := mem_allSources z
      have hs : allSources.Pairwise (fun a b => sourceNumber a < sourceNumber b) := by decide
      rw [e] at hm hs
      rcases List.mem_append.1 hm with hm | hm
      · exact hm
      · rcases List.mem_cons.1 hm with rfl | hm
        · exact absurd hz (lt_irrefl _)
        · have := (List.pairwise_cons.1 (List.pairwise_append.1 hs).2.1).1 z hm
          omega
    have := hn z hz'
    simp [hp, hl] at this

/-! ### Making a source pending (R148) -/

/-- After it the source is pending. -/
theorem State.makePending_get (s : State) (x : Source) : (s.makePending x).prot.pending.get x = true := by
  unfold State.makePending
  split
  · assumption
  · refine (State.ripple_accept _).pend x ?_
    simp

end Sys2Proof.Machine
end

