-- ==== Sys2Proof/Laws/FrameStart.lean ====
section
/-! SUPPORT. What each stage of a frame start, of an output line and of an output frame's end can change: one
lemma for each stage, naming the fields it may rewrite; the flags only grow. -/

namespace Sys2Proof.Machine

/-- The link receiver's part (R160, R161): the link, and at a return the flag and the LINK cause. -/
theorem State.linkFrameStart_frame (s : State) (parity : Parity) (z : Size) :
    ∃ link sender picture, s.sender.Grows sender
      ∧ s.linkFrameStart parity z = { s with link := link, sender := sender, picture := picture } := by
  unfold State.linkFrameStart
  simp only
  split
  · exact ⟨_, _, _, .refl _, rfl⟩
  · exact ⟨_, _, _, Sender.grows_raise _ _, rfl⟩

/-- The swap (R31, R32): the tables and the flag. -/
theorem State.takeCommit_frame (s : State) (parity : Parity) :
    ∃ sender table, s.sender.Grows sender ∧ s.takeCommit parity = { s with sender := sender, table := table } := by
  unfold State.takeCommit
  split
  · split
    · exact ⟨_, _, Sender.grows_raise _ _, rfl⟩
    · exact ⟨_, _, .refl _, rfl⟩
  · exact ⟨_, _, .refl _, rfl⟩

/-- A generation's start or its request (R44): the tables and the generator. -/
theorem State.requestGeneration_frame (s : State) (z : Size) :
    ∃ table gen, s.requestGeneration z = { s with table := table, gen := gen } := by
  unfold State.requestGeneration
  split
  · exact ⟨_, _, rfl⟩
  · exact ⟨_, _, rfl⟩
  · split
    · exact ⟨_, _, rfl⟩
    · exact ⟨_, _, rfl⟩

/-- The size check and what it sets off (R34, R35): the tables, the generator and the flag. -/
theorem State.checkSize_frame (s : State) :
    ∃ sender table gen, s.sender.Grows sender
      ∧ s.checkSize = { s with sender := sender, table := table, gen := gen } := by
  unfold State.checkSize
  simp only
  split
  · exact ⟨_, _, _, .refl _, rfl⟩
  · exact ⟨_, _, _, .refl _, rfl⟩
  · exact ⟨_, _, _, .refl _, rfl⟩
  · split
    · exact ⟨_, _, _, .refl _, rfl⟩
    · split
      · rename_i z _ _ _
        obtain ⟨table, gen, h⟩ := State.requestGeneration_frame
          (State.raise { s with table := { s.table with mismatch := some z } } .sizeMismatch) z
        exact ⟨_, _, _, Sender.grows_raise _ _, h⟩
      · exact ⟨_, _, _, Sender.grows_raise _ _, rfl⟩

/-- The tracker's part (R88 to R90): the placement and the flag. -/
theorem State.placeFrameStart_frame (s : State) (m : Margins) :
    ∃ sender place, s.sender.Grows sender
      ∧ s.placeFrameStart m = { s with sender := sender, place := place } := by
  unfold State.placeFrameStart
  simp only
  split
  · exact ⟨_, _, Sender.grows_raise _ _, rfl⟩
  · exact ⟨_, _, .refl _, rfl⟩

/-- A whole frame start leaves the queue, the hold, the pins, the part state, the frame memory, the envelopes,
the axes, the focus, the sensors, the fans and the protection as they were; the link is what the link
receiver's part makes it. -/
theorem State.inputFrameStart_frame (s : State) (parity : Parity) (z : Size) :
    ∃ sender picture table gen place light, s.sender.Grows sender
      ∧ s.inputFrameStart parity z = { s with
        link := (s.linkFrameStart parity z).link, sender := sender, picture := picture, table := table
        gen := gen, place := place, light := light } := by
  unfold State.inputFrameStart
  simp only
  obtain ⟨link, n1, p1, g1, h1⟩ := s.linkFrameStart_frame parity z
  obtain ⟨n2, t2, g2, h2⟩ := State.takeCommit_frame (s.linkFrameStart parity z) parity
  generalize (s.linkFrameStart parity z).takeCommit parity = s1 at h2 ⊢
  obtain ⟨n3, t3, gen3, g3, h3⟩ := s1.checkSize_frame
  generalize s1.checkSize = s2 at h3 ⊢
  generalize s1.sizeCheck = c
  obtain ⟨n4, place, g4, h4⟩ := (s2.frameCauses c).placeFrameStart_frame (s2.frameCauses c).handedMargins
  generalize (s2.frameCauses c).placeFrameStart (s2.frameCauses c).handedMargins = s3 at h4 ⊢
  rw [h1] at h2 g2 ⊢
  subst h2 h3 h4
  exact ⟨n4, _, t3, gen3, place, _, g1.trans (g2.trans (g3.trans g4)), rfl⟩

/-- A line sent changes the picture alone (R5). -/
theorem State.sendLine_frame (s : State) : ∃ picture, s.sendLine = { s with picture := picture } := by
  unfold State.sendLine
  split
  · simp only
    split
    · exact ⟨_, rfl⟩
    · exact ⟨_, rfl⟩
  · exact ⟨_, rfl⟩

theorem State.sendLines_frame (n : Nat) (s : State) :
    ∃ picture, State.sendLines n s = { s with picture := picture } := by
  induction n generalizing s with
  | zero => exact ⟨_, rfl⟩
  | succ n ih =>
    obtain ⟨p, h⟩ := s.sendLine_frame
    obtain ⟨q, g⟩ := ih s.sendLine
    exact ⟨q, by rw [State.sendLines, g, h]⟩

/-- Sending lines leaves the mute causes, the frame's parameters and its blackness (R4, R15). -/
theorem State.sendLine_mutes (s : State) : s.sendLine.picture.mutes = s.picture.mutes := by
  unfold State.sendLine
  split
  · simp only
    split <;> rfl
  · rfl

theorem State.sendLines_mutes (n : Nat) (s : State) : (State.sendLines n s).picture.mutes = s.picture.mutes := by
  induction n generalizing s with
  | zero => rfl
  | succ n ih => rw [State.sendLines, ih, State.sendLine_mutes]

theorem State.closeFrame_mutes (s : State) : s.closeFrame.picture.mutes = s.picture.mutes := by
  cases h : s.picture.frame <;> simp [State.closeFrame, h]

theorem State.endFrame_mutes (s : State) : s.endFrame.picture.mutes = s.picture.mutes := by
  unfold State.endFrame
  split
  · rw [State.closeFrame_mutes, State.sendLines_mutes]
  · rfl

/-- The light limit and the drive level are not the frame end's to change. -/
theorem State.closeFrame_limit (s : State) : s.closeFrame.light.limit = s.light.limit := by
  cases h : s.picture.frame <;> simp [State.closeFrame, h, Light.frameEnded]

theorem State.closeFrame_frame (s : State) : s.closeFrame.picture.frame = none := by
  cases h : s.picture.frame <;> simp [State.closeFrame, h]

theorem State.endFrame_limit (s : State) : s.endFrame.light.limit = s.light.limit := by
  unfold State.endFrame
  split
  · rename_i f _
    obtain ⟨p, h⟩ := State.sendLines_frame (Config.panelRows - f.nextRow) s
    rw [State.closeFrame_limit, h]
  · rfl

/-- After an output frame's end none is in flight. -/
theorem State.endFrame_none (s : State) : s.endFrame.picture.frame = none := by
  unfold State.endFrame
  split
  · exact State.closeFrame_frame _
  · assumption

/-- An output frame's end changes the picture and the light unit alone (R21, R123). -/
theorem State.endFrame_frame (s : State) :
    ∃ picture light, s.endFrame = { s with picture := picture, light := light } := by
  unfold State.endFrame
  split
  · rename_i f _
    obtain ⟨p, h⟩ := State.sendLines_frame (Config.panelRows - f.nextRow) s
    unfold State.closeFrame
    rw [h]
    split
    · exact ⟨_, _, rfl⟩
    · exact ⟨_, _, rfl⟩
  · exact ⟨_, _, rfl⟩

end Sys2Proof.Machine
end

