-- ==== Sys2Proof/Laws/Messages.lean ====
section
/-! SUPPORT. What the intake does with envelopes, and what running a message is when the executor slot holds
it. -/

namespace Sys2Proof.Machine

/-- A message in the slot is carried out, its outcome written and the next one taken (R166, R167). -/
theorem runMessage_eq {s : State} {e : Envelope} {kind : Byte} {p : List Word} (h : s.Executes e kind p)
    {mine : Envelope → Bool} (hm : mine e = true) (body : List Word → State → State × MsgOutcome) :
    runMessage s mine body = .next ((body p s).1.ended e (body p s).2) := by
  simp [runMessage, whenReleased, h.free, h.slot, hm, State.finish, State.ended, h.payload]

theorem ofKind_eq {s : State} {e : Envelope} {kind : Byte} {p : List Word} (h : s.Executes e kind p) :
    ofKind kind e = true := by
  simp [ofKind, h.kind]

/-- An event in a part that is not held (R178). -/
theorem whenReleased_eq {s : State} (h : s.hold.held = false) (f : State → State) :
    whenReleased s f = .next (f s) := by
  simp [whenReleased, h]

/-- Taking the next head moves one envelope and keeps the number of all (R166). -/
theorem Intake.total_takeNext (i : Intake) : i.takeNext.total = i.total := by
  unfold Intake.takeNext Intake.total Intake.queued
  split <;> simp_all <;> omega

/-- A message that joins its queue adds one to the queued (R164). -/
theorem Intake.total_enqueue (i : Intake) (e : Envelope) : (i.enqueue e).total = i.total + 1 := by
  unfold Intake.enqueue Intake.total Intake.queued
  split <;> simp <;> omega

/-- After the executor has looked, a message in the queues means one in the slot (R166). -/
theorem Intake.taken_takeNext (i : Intake) (h : i.takeNext.slot = none) : i.takeNext.queued = 0 := by
  unfold Intake.takeNext at h ⊢
  unfold Intake.queued
  split at h <;> simp_all

/-- An execution's end keeps the number of envelopes (R167). -/
theorem Intake.total_finish {i : Intake} {e e' : Envelope} (h : i.slot = some e') (o : MsgOutcome) :
    (i.finish e o).total = i.total := by
  unfold Intake.finish
  split <;> rw [Intake.total_takeNext] <;> unfold Intake.total Intake.queued <;> simp [h] <;> omega

end Sys2Proof.Machine
end

