-- ==== Sys2Proof/Laws/Step.lean ====
section
/-! SUPPORT. One lemma for every property that steps keep: a property kept by each command's own effect is
kept by every step. A proof about the whole part says only what each effect does to the property. -/

namespace Sys2Proof.Machine

/-- What a message command can do: nothing, or its body's effect on the state with the outcome written. -/
theorem runMessage_cases {s t : State} {mine : Envelope → Bool} {body : List Word → State → State × MsgOutcome}
    (h : runMessage s mine body = .next t) :
    t = s ∨ ∃ e, s.hold.held = false ∧ s.intake.slot = some e ∧ mine e = true
      ∧ t = (body e.payload s).1.ended e (body e.payload s).2 := by
  unfold runMessage whenReleased at h
  simp only [Host.Outcome.next.injEq] at h
  split at h
  · exact .inl h.symm
  · split at h
    · rename_i e he
      split at h
      · exact .inr ⟨e, by simp_all, he, by assumption, h.symm⟩
      · exact .inl h.symm
    · exact .inl h.symm

/-- What an event command can do: nothing while held, else its effect. -/
theorem whenReleased_cases {s t : State} {f : State → State} (h : whenReleased s f = .next t) :
    t = s ∨ s.hold.held = false ∧ t = f s := by
  unfold whenReleased at h
  simp only [Host.Outcome.next.injEq] at h
  split at h
  · exact .inl h.symm
  · exact .inr ⟨by simp_all, h.symm⟩

/-- A body whose first checks refuse leaves the state; else its rest decides. -/
theorem readyThen_keeps {P : State → Prop} {φ : Type} {fields : Option φ}
    {k : φ → State → State × MsgOutcome} {s : State} (hs : P s)
    (h : ∀ x, fields = some x → P (k x s).1) : P (readyThen fields k s).1 := by
  unfold readyThen
  split
  · exact hs
  · split
    · exact hs
    · exact h _ rfl

theorem fieldsThen_keeps {P : State → Prop} {φ : Type} {fields : Option φ}
    {k : φ → State → State × MsgOutcome} {s : State} (hs : P s)
    (h : ∀ x, fields = some x → P (k x s).1) : P (fieldsThen fields k s).1 := by
  unfold fieldsThen
  split
  · exact hs
  · exact h _ rfl

/-- A report changes nothing (R174). -/
theorem reportBody_fst (item top : Nat) (items : Nat → State → List Word) (p : List Word) (s : State) :
    (reportBody item top items p s).1 = s := by
  unfold reportBody fieldsThen
  split <;> rfl

/-- Each command's own effect takes `P` to `Q`, which an outcome's writing keeps; with `Q` left out, `P` is kept. -/
structure State.Kept (P : State → Prop) (Q : State → Prop := P) : Prop where
  weaken : ∀ s, P s → Q s
  queue : ∀ s l, P s → P { s with pending := l }
  ended : ∀ s e o, s.intake.slot = some e → Q s → Q (s.ended e o)
  holding : ∀ s h, P s → Q { s with hold := h }
  powerOn : ∀ (s : State) cause h, Q (s.powerOnValues cause h)
  checkEnds : ∀ s passed, P s → Q (s.checkEnds passed)
  frameStart : ∀ s parity z, P s → Q (s.inputFrameStart parity z)
  activeLine : ∀ s xs, P s → Q (s.activeLine xs)
  blankingSlot : ∀ s ws, P s → Q (s.blankingSlot ws)
  linkLoss : ∀ s, P s → Q s.linkLoss
  sendLine : ∀ s, P s → Q s.sendLine
  endFrame : ∀ s, P s → Q s.endFrame
  send : ∀ s, P s → Q s.send
  silent : ∀ s, P s → Q { s with sender := { s.sender with laneOut := none } }
  fanUpdate : ∀ s, P s → Q s.fanUpdate
  tachPulse : ∀ s x, P s → Q (s.setFan x { s.fan x with count := (s.fan x).count + 1 })
  windowEnd : ∀ s x v, P s → Q (s.windowEnd x v)
  stepAxis : ∀ s a, P s → Q (s.stepAxis a)
  pins : ∀ s a p, P s → P (s.setPin a p)
  switchCloses : ∀ s a, P s → Q (s.switchCloses a)
  switchOpens : ∀ s a, P s → Q (s.switchOpens a)
  boundReached : ∀ s a, P s → Q (s.boundReached a)
  legTimeout : ∀ s a, P s → Q (s.legTimeout a)
  driverFault : ∀ s a, P s → Q (s.enterFault a .driver)
  endGeneration : ∀ s, P s → Q s.endGeneration
  softReset : ∀ s, P s → Q s.softReset
  stop : ∀ s p, P s → Q (stopBody p s).1
  lock : ∀ s p, P s → Q (lockBody p s).1
  unlock : ∀ s p, P s → Q (unlockBody p s).1
  clear : ∀ s p, P s → Q (clearBody p s).1
  lower : ∀ s p, P s → Q (lowerBody p s).1
  eventAck : ∀ s p, P s → Q (eventAckBody p s).1
  move : ∀ s p, P s → Q (moveBody p s).1
  hold : ∀ s p, P s → Q (holdBody p s).1
  resume : ∀ s p, P s → Q (resumeBody p s).1
  returnMove : ∀ s p, P s → Q (returnBody p s).1
  home : ∀ s p, P s → Q (homeBody p s).1
  place : ∀ s p, P s → Q (placeBody p s).1
  placeCancel : ∀ s p, P s → Q (placeCancelBody p s).1
  install : ∀ s p, P s → Q (installBody p s).1
  pictureMode : ∀ s p, P s → Q (pictureModeBody p s).1
  tableOpen : ∀ s p, P s → Q (tableOpenBody p s).1
  tableRun : ∀ s p, P s → Q (tableRunBody p s).1
  tableCommit : ∀ s p, P s → Q (tableCommitBody p s).1
  corners : ∀ s p, P s → Q (cornersBody p s).1
  lensCal : ∀ s p, P s → Q (lensCalBody p s).1
  profile : ∀ s p, P s → Q (profileBody p s).1
  focusTable : ∀ s p, P s → Q (focusTableBody p s).1
  focusUpkeep : ∀ s p, P s → Q (focusUpkeepBody p s).1
  sensorSet : ∀ s p, P s → Q (sensorSetBody p s).1
  thresholds : ∀ s p, P s → Q (thresholdsBody p s).1
  brightness : ∀ s p, P s → Q (brightnessBody p s).1
  fanCurve : ∀ s p, P s → Q (fanCurveBody p s).1
  fanLimits : ∀ s p, P s → Q (fanLimitsBody p s).1
  quiet : ∀ s p, P s → Q (quietBody p s).1
  levels : ∀ s p, P s → Q (levelsBody p s).1
  actions : ∀ s p, P s → Q (actionsBody p s).1
  eventMask : ∀ s p, P s → Q (eventMaskBody p s).1
  queryCounters : ∀ s p, P s → Q (countersBody p s).1
  queryCause : ∀ s p, P s → Q (causeBody p s).1

/-- A command in a part that is not held keeps what its effect keeps. -/
theorem State.Kept.whenReleased {Q : State → Prop} {s t : State} {f : State → State} (hs : Q s)
    (hf : Q (f s)) (h : whenReleased s f = .next t) : Q t := by
  rcases whenReleased_cases h with rfl | ⟨_, rfl⟩
  · exact hs
  · exact hf

theorem State.Kept.message {P Q : State → Prop} (K : State.Kept P Q) {s t : State} {mine : Envelope → Bool}
    {body : List Word → State → State × MsgOutcome} (hs : P s) (hb : ∀ p, Q (body p s).1)
    (hi : ∀ p, (body p s).1.intake.slot = s.intake.slot) (h : runMessage s mine body = .next t) : Q t := by
  rcases runMessage_cases h with rfl | ⟨e, _, he, _, rfl⟩
  · exact K.weaken _ hs
  · exact K.ended _ _ _ ((hi _).trans he) (hb _)

/-! ### Locks and levels, for the bodies below -/

/-- The host lock set or cleared, then the effect on the axis: nothing beyond the lens controller, the tracker
and the flags (R75). -/
theorem State.setHostLock_near (s : State) (a : Axis) (on : Bool) :
    (s.setAxis a { s.axis a with hostLock := on }).Near (s.setHostLock a on) := by
  unfold State.setHostLock
  simp only
  split
  · exact State.near_lockEffect _ _
  · exact .refl _

theorem State.setHostLock_intake (s : State) (a : Axis) (on : Bool) : (s.setHostLock a on).intake = s.intake :=
  (s.setHostLock_near a on).intake

theorem State.lowerTo_intake (s : State) (n : Nat) : (s.lowerTo n).intake = s.intake := by
  unfold State.lowerTo
  simp only
  split
  · rfl
  · rw [(State.ripple_deliver _).intake]; rfl

theorem State.clearSource_intake (s : State) (x : Source) : (s.clearSource x).intake = s.intake := by
  unfold State.clearSource
  split <;> rfl

/-! ### No body touches the envelopes -/

theorem stopBody_intake (p : List Word) (s : State) : (stopBody p s).1.intake = s.intake := by
  unfold stopBody
  refine readyThen_keeps (P := fun t => t.intake = s.intake) rfl fun x _ => ?_
  exact (State.near_stopAxis s x).intake

theorem lockBody_intake (p : List Word) (s : State) : (lockBody p s).1.intake = s.intake := by
  unfold lockBody
  refine readyThen_keeps (P := fun t => t.intake = s.intake) rfl fun x _ => ?_
  exact s.setHostLock_intake x true

theorem unlockBody_intake (p : List Word) (s : State) : (unlockBody p s).1.intake = s.intake := by
  unfold unlockBody
  refine readyThen_keeps (P := fun t => t.intake = s.intake) rfl fun x _ => ?_
  exact s.setHostLock_intake x false

theorem clearBody_intake (p : List Word) (s : State) : (clearBody p s).1.intake = s.intake := by
  unfold clearBody
  refine fieldsThen_keeps (P := fun t => t.intake = s.intake) rfl fun x _ => ?_
  exact s.clearSource_intake x

theorem lowerBody_intake (p : List Word) (s : State) : (lowerBody p s).1.intake = s.intake := by
  unfold lowerBody
  refine fieldsThen_keeps (P := fun t => t.intake = s.intake) rfl fun x _ => ?_
  split
  · rfl
  · split
    · rfl
    · exact s.lowerTo_intake _

theorem eventAckBody_intake (p : List Word) (s : State) : (eventAckBody p s).1.intake = s.intake := by
  unfold eventAckBody
  refine fieldsThen_keeps (P := fun t => t.intake = s.intake) rfl fun x _ => ?_
  rfl

theorem moveBody_intake (p : List Word) (s : State) : (moveBody p s).1.intake = s.intake := by
  unfold moveBody
  refine readyThen_keeps (P := fun t => t.intake = s.intake) rfl fun x _ => ?_
  simp only
  split
  · rfl
  · rw [(State.ripple_beginMove _ _ _ _ _).intake, State.setAxis_intake]
    exact (s.near_handOver _ _).intake

theorem holdBody_intake (p : List Word) (s : State) : (holdBody p s).1.intake = s.intake := by
  unfold holdBody
  refine readyThen_keeps (P := fun t => t.intake = s.intake) rfl fun x _ => ?_
  split <;> first | rfl | exact (s.ripple_decelerate _ _ _).intake

theorem resumeBody_intake (p : List Word) (s : State) : (resumeBody p s).1.intake = s.intake := by
  unfold resumeBody
  refine readyThen_keeps (P := fun t => t.intake = s.intake) rfl fun x _ => ?_
  split
  · rfl
  · split <;> first | rfl | exact (s.ripple_resumeMove _ _).intake

theorem returnBody_intake (p : List Word) (s : State) : (returnBody p s).1.intake = s.intake := by
  unfold returnBody
  refine readyThen_keeps (P := fun t => t.intake = s.intake) rfl fun x _ => ?_
  simp only
  split
  · rfl
  · rfl
  · rw [(State.ripple_beginMove _ _ _ _ _).intake, State.setAxis_intake]
    exact (s.near_handOver _ _).intake

theorem homeBody_intake (p : List Word) (s : State) : (homeBody p s).1.intake = s.intake := by
  unfold homeBody
  refine readyThen_keeps (P := fun t => t.intake = s.intake) rfl fun x _ => ?_
  split
  · rfl
  · split
    · rfl
    · exact (s.ripple_homeAxes _).intake

theorem placeBody_intake (p : List Word) (s : State) : (placeBody p s).1.intake = s.intake := by
  unfold placeBody
  refine readyThen_keeps (P := fun t => t.intake = s.intake) rfl fun x _ => ?_
  simp only
  split
  · rfl
  · split
    · rfl
    · split
      · rfl
      · exact (s.ripple_startPlacement _ _).intake

theorem placeCancelBody_intake (p : List Word) (s : State) : (placeCancelBody p s).1.intake = s.intake := by
  unfold placeCancelBody
  refine readyThen_keeps (P := fun t => t.intake = s.intake) rfl fun x _ => ?_
  rfl

theorem installBody_intake (p : List Word) (s : State) : (installBody p s).1.intake = s.intake := by
  unfold installBody
  refine readyThen_keeps (P := fun t => t.intake = s.intake) rfl fun x _ => ?_
  simp only
  split <;> rfl

theorem pictureModeBody_intake (p : List Word) (s : State) : (pictureModeBody p s).1.intake = s.intake := by
  unfold pictureModeBody
  refine readyThen_keeps (P := fun t => t.intake = s.intake) rfl fun x _ => ?_
  rfl

theorem tableOpenBody_intake (p : List Word) (s : State) : (tableOpenBody p s).1.intake = s.intake := by
  unfold tableOpenBody
  refine readyThen_keeps (P := fun t => t.intake = s.intake) rfl fun x _ => ?_
  simp only
  split <;> rfl

theorem tableRunBody_intake (p : List Word) (s : State) : (tableRunBody p s).1.intake = s.intake := by
  unfold tableRunBody
  refine readyThen_keeps (P := fun t => t.intake = s.intake) rfl fun x _ => ?_
  simp only
  split
  · rfl
  · split <;> rfl

theorem tableCommitBody_intake (p : List Word) (s : State) : (tableCommitBody p s).1.intake = s.intake := by
  unfold tableCommitBody
  refine readyThen_keeps (P := fun t => t.intake = s.intake) rfl fun x _ => ?_
  simp only
  split
  · rfl
  · split
    · rfl
    · split <;> rfl

theorem cornersBody_intake (p : List Word) (s : State) : (cornersBody p s).1.intake = s.intake := by
  unfold cornersBody
  refine readyThen_keeps (P := fun t => t.intake = s.intake) rfl fun x _ => ?_
  simp only
  split
  · rfl
  · split
    · rfl
    · split <;> rfl

theorem lensCalBody_intake (p : List Word) (s : State) : (lensCalBody p s).1.intake = s.intake := by
  unfold lensCalBody
  refine readyThen_keeps (P := fun t => t.intake = s.intake) rfl fun x _ => ?_
  simp only
  split
  · rfl
  · split <;> rfl

theorem profileBody_intake (p : List Word) (s : State) : (profileBody p s).1.intake = s.intake := by
  unfold profileBody
  refine readyThen_keeps (P := fun t => t.intake = s.intake) rfl fun x _ => ?_
  rfl

theorem focusTableBody_intake (p : List Word) (s : State) : (focusTableBody p s).1.intake = s.intake := by
  unfold focusTableBody
  refine readyThen_keeps (P := fun t => t.intake = s.intake) rfl fun x _ => ?_
  rfl

theorem focusUpkeepBody_intake (p : List Word) (s : State) : (focusUpkeepBody p s).1.intake = s.intake := by
  unfold focusUpkeepBody
  refine readyThen_keeps (P := fun t => t.intake = s.intake) rfl fun x _ => ?_
  rfl

theorem sensorSetBody_intake (p : List Word) (s : State) : (sensorSetBody p s).1.intake = s.intake := by
  unfold sensorSetBody
  refine fieldsThen_keeps (P := fun t => t.intake = s.intake) rfl fun x _ => ?_
  rfl

theorem thresholdsBody_intake (p : List Word) (s : State) : (thresholdsBody p s).1.intake = s.intake := by
  unfold thresholdsBody
  refine fieldsThen_keeps (P := fun t => t.intake = s.intake) rfl fun x _ => ?_
  rfl

theorem brightnessBody_intake (p : List Word) (s : State) : (brightnessBody p s).1.intake = s.intake := by
  unfold brightnessBody
  refine fieldsThen_keeps (P := fun t => t.intake = s.intake) rfl fun x _ => ?_
  rfl

theorem fanCurveBody_intake (p : List Word) (s : State) : (fanCurveBody p s).1.intake = s.intake := by
  unfold fanCurveBody
  refine fieldsThen_keeps (P := fun t => t.intake = s.intake) rfl fun x _ => ?_
  rfl

theorem fanLimitsBody_intake (p : List Word) (s : State) : (fanLimitsBody p s).1.intake = s.intake := by
  unfold fanLimitsBody
  refine fieldsThen_keeps (P := fun t => t.intake = s.intake) rfl fun x _ => ?_
  rfl

theorem quietBody_intake (p : List Word) (s : State) : (quietBody p s).1.intake = s.intake := by
  unfold quietBody
  refine fieldsThen_keeps (P := fun t => t.intake = s.intake) rfl fun x _ => ?_
  rfl

theorem levelsBody_intake (p : List Word) (s : State) : (levelsBody p s).1.intake = s.intake := by
  unfold levelsBody
  refine fieldsThen_keeps (P := fun t => t.intake = s.intake) rfl fun x _ => ?_
  exact (State.ripple_accept _).intake

theorem actionsBody_intake (p : List Word) (s : State) : (actionsBody p s).1.intake = s.intake := by
  unfold actionsBody
  refine fieldsThen_keeps (P := fun t => t.intake = s.intake) rfl fun x _ => ?_
  simp only
  split
  · exact (State.ripple_deliver _).intake
  · rfl

theorem eventMaskBody_intake (p : List Word) (s : State) : (eventMaskBody p s).1.intake = s.intake := by
  unfold eventMaskBody
  refine fieldsThen_keeps (P := fun t => t.intake = s.intake) rfl fun x _ => ?_
  rfl

theorem countersBody_slot (p : List Word) (s : State) : (countersBody p s).1.intake.slot = s.intake.slot := by
  unfold countersBody
  refine fieldsThen_keeps (P := fun t => t.intake.slot = s.intake.slot) rfl fun x _ => ?_
  simp only
  split <;> rfl

theorem causeBody_intake (p : List Word) (s : State) : (causeBody p s).1.intake = s.intake := by
  unfold causeBody
  refine fieldsThen_keeps (P := fun t => t.intake = s.intake) rfl fun x _ => ?_
  simp only
  split <;> rfl

/-! ### Every command -/

/-- A kept property is kept by every command. -/
theorem State.Kept.exec {P Q : State → Prop} (K : State.Kept P Q) {c : Instr} {s t : State} (hs : P s)
    (h : exec c s = .next t) : Q t := by
  cases c with
  | powerOnReset =>
    simp only [Machine.exec, execPowerOnReset, Host.Outcome.next.injEq] at h
    split at h <;> subst h
    · exact K.holding _ _ hs
    · exact K.powerOn _ _ _
  | supplyDipReset =>
    simp only [Machine.exec, execSupplyDipReset, Host.Outcome.next.injEq] at h
    split at h <;> subst h
    · exact K.holding _ _ hs
    · exact K.powerOn _ _ _
  | heldInReset i =>
    simp only [Machine.exec, execHeldInReset, Host.Outcome.next.injEq] at h
    subst h
    exact K.powerOn _ _ _
  | softReset =>
    simp only [Machine.exec, execSoftReset] at h
    refine State.Kept.whenReleased (K.weaken _ hs) ?_ h
    split
    · split
      · exact K.softReset _ hs
      · exact K.weaken _ hs
    · exact K.weaken _ hs
  | selfCheckDone passed =>
    simp only [Machine.exec, execSelfCheckDone] at h
    exact State.Kept.whenReleased (K.weaken _ hs) (K.checkEnds _ _ hs) h
  | inputFrameStart parity w h' =>
    simp only [Machine.exec, execInputFrameStart] at h
    exact State.Kept.whenReleased (K.weaken _ hs) (K.frameStart _ _ _ hs) h
  | activeLine xs =>
    simp only [Machine.exec, execActiveLine] at h
    exact State.Kept.whenReleased (K.weaken _ hs) (K.activeLine _ _ hs) h
  | blankingSlot ws =>
    simp only [Machine.exec, execBlankingSlot] at h
    exact State.Kept.whenReleased (K.weaken _ hs) (K.blankingSlot _ _ hs) h
  | linkLossTimeout =>
    simp only [Machine.exec, execLinkLossTimeout] at h
    exact State.Kept.whenReleased (K.weaken _ hs) (K.linkLoss _ hs) h
  | outputLine =>
    simp only [Machine.exec, execOutputLine] at h
    exact State.Kept.whenReleased (K.weaken _ hs) (K.sendLine _ hs) h
  | outputFrameEnd =>
    simp only [Machine.exec, execOutputFrameEnd] at h
    exact State.Kept.whenReleased (K.weaken _ hs) (K.endFrame _ hs) h
  | sendOpportunity ready =>
    simp only [Machine.exec, execSendOpportunity] at h
    refine State.Kept.whenReleased (K.weaken _ hs) ?_ h
    split
    · exact K.send _ hs
    · exact K.silent _ hs
  | fanUpdate =>
    simp only [Machine.exec, execFanUpdate] at h
    exact State.Kept.whenReleased (K.weaken _ hs) (K.fanUpdate _ hs) h
  | tachPulse x =>
    simp only [Machine.exec, execTachPulse] at h
    exact State.Kept.whenReleased (K.weaken _ hs) (K.tachPulse _ _ hs) h
  | windowEnd x raw =>
    simp only [Machine.exec, execWindowEnd] at h
    exact State.Kept.whenReleased (K.weaken _ hs) (K.windowEnd _ _ _ hs) h
  | axisStep a =>
    simp only [Machine.exec, execAxisStep] at h
    exact State.Kept.whenReleased (K.weaken _ hs) (K.stepAxis _ _ hs) h
  | limitSwitchClose a =>
    simp only [Machine.exec, execLimitSwitchClose] at h
    exact State.Kept.whenReleased (K.weaken _ (K.pins _ _ _ hs)) (K.switchCloses _ _ (K.pins _ _ _ hs)) h
  | limitSwitchOpen a =>
    simp only [Machine.exec, execLimitSwitchOpen] at h
    exact State.Kept.whenReleased (K.weaken _ (K.pins _ _ _ hs)) (K.switchOpens _ _ (K.pins _ _ _ hs)) h
  | homingBoundReached a =>
    simp only [Machine.exec, execHomingBoundReached] at h
    exact State.Kept.whenReleased (K.weaken _ hs) (K.boundReached _ _ hs) h
  | moveTimeout a =>
    simp only [Machine.exec, execMoveTimeout] at h
    exact State.Kept.whenReleased (K.weaken _ hs) (K.legTimeout _ _ hs) h
  | driverFault a on =>
    simp only [Machine.exec, execDriverFault] at h
    refine State.Kept.whenReleased (K.weaken _ (K.pins _ _ _ hs)) ?_ h
    split
    · exact K.driverFault _ _ (K.pins _ _ _ hs)
    · exact K.weaken _ (K.pins _ _ _ hs)
  | generationEnd =>
    simp only [Machine.exec, execGenerationEnd] at h
    exact State.Kept.whenReleased (K.weaken _ hs) (K.endGeneration _ hs) h
  | unknownKind =>
    simp only [Machine.exec, execUnknownKind] at h
    exact K.message hs (fun _ => K.weaken _ hs) (fun _ => rfl) h
  | stop => exact K.message hs (fun p => K.stop _ p hs) (fun p => congrArg Intake.slot (stopBody_intake p s)) h
  | lock => exact K.message hs (fun p => K.lock _ p hs) (fun p => congrArg Intake.slot (lockBody_intake p s)) h
  | unlock => exact K.message hs (fun p => K.unlock _ p hs) (fun p => congrArg Intake.slot (unlockBody_intake p s)) h
  | clear => exact K.message hs (fun p => K.clear _ p hs) (fun p => congrArg Intake.slot (clearBody_intake p s)) h
  | lower => exact K.message hs (fun p => K.lower _ p hs) (fun p => congrArg Intake.slot (lowerBody_intake p s)) h
  | eventAck => exact K.message hs (fun p => K.eventAck _ p hs) (fun p => congrArg Intake.slot (eventAckBody_intake p s)) h
  | move => exact K.message hs (fun p => K.move _ p hs) (fun p => congrArg Intake.slot (moveBody_intake p s)) h
  | hold => exact K.message hs (fun p => K.hold _ p hs) (fun p => congrArg Intake.slot (holdBody_intake p s)) h
  | resume => exact K.message hs (fun p => K.resume _ p hs) (fun p => congrArg Intake.slot (resumeBody_intake p s)) h
  | returnMove => exact K.message hs (fun p => K.returnMove _ p hs) (fun p => congrArg Intake.slot (returnBody_intake p s)) h
  | home => exact K.message hs (fun p => K.home _ p hs) (fun p => congrArg Intake.slot (homeBody_intake p s)) h
  | place => exact K.message hs (fun p => K.place _ p hs) (fun p => congrArg Intake.slot (placeBody_intake p s)) h
  | placeCancel => exact K.message hs (fun p => K.placeCancel _ p hs) (fun p => congrArg Intake.slot (placeCancelBody_intake p s)) h
  | install => exact K.message hs (fun p => K.install _ p hs) (fun p => congrArg Intake.slot (installBody_intake p s)) h
  | pictureMode => exact K.message hs (fun p => K.pictureMode _ p hs) (fun p => congrArg Intake.slot (pictureModeBody_intake p s)) h
  | tableOpen => exact K.message hs (fun p => K.tableOpen _ p hs) (fun p => congrArg Intake.slot (tableOpenBody_intake p s)) h
  | tableRun => exact K.message hs (fun p => K.tableRun _ p hs) (fun p => congrArg Intake.slot (tableRunBody_intake p s)) h
  | tableCommit => exact K.message hs (fun p => K.tableCommit _ p hs) (fun p => congrArg Intake.slot (tableCommitBody_intake p s)) h
  | corners => exact K.message hs (fun p => K.corners _ p hs) (fun p => congrArg Intake.slot (cornersBody_intake p s)) h
  | lensCal => exact K.message hs (fun p => K.lensCal _ p hs) (fun p => congrArg Intake.slot (lensCalBody_intake p s)) h
  | profile => exact K.message hs (fun p => K.profile _ p hs) (fun p => congrArg Intake.slot (profileBody_intake p s)) h
  | focusTable => exact K.message hs (fun p => K.focusTable _ p hs) (fun p => congrArg Intake.slot (focusTableBody_intake p s)) h
  | focusUpkeep => exact K.message hs (fun p => K.focusUpkeep _ p hs) (fun p => congrArg Intake.slot (focusUpkeepBody_intake p s)) h
  | sensorSet => exact K.message hs (fun p => K.sensorSet _ p hs) (fun p => congrArg Intake.slot (sensorSetBody_intake p s)) h
  | thresholds => exact K.message hs (fun p => K.thresholds _ p hs) (fun p => congrArg Intake.slot (thresholdsBody_intake p s)) h
  | brightness => exact K.message hs (fun p => K.brightness _ p hs) (fun p => congrArg Intake.slot (brightnessBody_intake p s)) h
  | fanCurve => exact K.message hs (fun p => K.fanCurve _ p hs) (fun p => congrArg Intake.slot (fanCurveBody_intake p s)) h
  | fanLimits => exact K.message hs (fun p => K.fanLimits _ p hs) (fun p => congrArg Intake.slot (fanLimitsBody_intake p s)) h
  | quiet => exact K.message hs (fun p => K.quiet _ p hs) (fun p => congrArg Intake.slot (quietBody_intake p s)) h
  | levels => exact K.message hs (fun p => K.levels _ p hs) (fun p => congrArg Intake.slot (levelsBody_intake p s)) h
  | actions => exact K.message hs (fun p => K.actions _ p hs) (fun p => congrArg Intake.slot (actionsBody_intake p s)) h
  | eventMask => exact K.message hs (fun p => K.eventMask _ p hs) (fun p => congrArg Intake.slot (eventMaskBody_intake p s)) h
  | queryCounters => exact K.message hs (fun p => K.queryCounters _ p hs) (fun p => countersBody_slot p s) h
  | queryCause => exact K.message hs (fun p => K.queryCause _ p hs) (fun p => congrArg Intake.slot (causeBody_intake p s)) h
  | queryAxis => exact K.message hs (fun p => by rw [reportBody_fst]; exact K.weaken _ hs) (fun p => by rw [reportBody_fst]) h
  | queryPlacement => exact K.message hs (fun p => by rw [reportBody_fst]; exact K.weaken _ hs) (fun p => by rw [reportBody_fst]) h
  | querySensors => exact K.message hs (fun p => by rw [reportBody_fst]; exact K.weaken _ hs) (fun p => by rw [reportBody_fst]) h
  | queryFans => exact K.message hs (fun p => by rw [reportBody_fst]; exact K.weaken _ hs) (fun p => by rw [reportBody_fst]) h
  | queryLight => exact K.message hs (fun p => by rw [reportBody_fst]; exact K.weaken _ hs) (fun p => by rw [reportBody_fst]) h
  | queryProtection => exact K.message hs (fun p => by rw [reportBody_fst]; exact K.weaken _ hs) (fun p => by rw [reportBody_fst]) h
  | queryEvents => exact K.message hs (fun p => by rw [reportBody_fst]; exact K.weaken _ hs) (fun p => by rw [reportBody_fst]) h
  | queryTable => exact K.message hs (fun p => by rw [reportBody_fst]; exact K.weaken _ hs) (fun p => by rw [reportBody_fst]) h
  | queryPicture => exact K.message hs (fun p => by rw [reportBody_fst]; exact K.weaken _ hs) (fun p => by rw [reportBody_fst]) h

/-- A kept property is kept by every step. -/
theorem State.Kept.step {P Q : State → Prop} (K : State.Kept P Q) {s t : State} (hs : P s)
    (h : step s = .next t) : Q t := by
  unfold Machine.step at h
  split at h
  · simp only [Host.Outcome.next.injEq] at h
    subst h
    exact K.weaken _ hs
  · exact K.exec (K.queue _ _ hs) h

end Sys2Proof.Machine
end

