-- ==== Sys2Proof/Laws/Effects.lean ====
section
/-! SUPPORT. What each command's own effect can change, one lemma for each: the blocks it rewrites, then what
may ripple from there. -/

namespace Sys2Proof.Machine

/-! ### Events -/

/-- R179: the part state and the mute causes; a failure makes MEMORY_FAULT pending. -/
theorem State.checkEnds_effect (s : State) (passed : Bool) :
    ∃ startup picture, State.Ripple { s with startup := startup, picture := picture } (s.checkEnds passed) := by
  unfold State.checkEnds
  simp only
  split
  · split
    · exact ⟨_, _, (State.near_raise _ _).ripple⟩
    · exact ⟨_, _, State.ripple_makePending _ _⟩
  · exact ⟨_, _, .refl _⟩

/-- R1. -/
theorem State.activeLine_frame (s : State) (xs : List Sample) :
    ∃ link mem, s.activeLine xs = { s with link := link, mem := mem } := by
  unfold State.activeLine
  simp only
  split
  · exact ⟨_, _, rfl⟩
  · split
    · exact ⟨_, _, rfl⟩
    · exact ⟨_, _, rfl⟩

/-- R162, R164. -/
theorem State.blankingSlot_frame (s : State) (ws : List Word) :
    ∃ link intake, State.Near { s with link := link, intake := intake } (s.blankingSlot ws) := by
  unfold State.blankingSlot State.arrive
  simp only
  split
  · exact ⟨_, _, .refl _⟩
  · split
    · exact ⟨_, _, .refl _⟩
    · exact ⟨_, _, .refl _⟩
    · split
      · exact ⟨_, _, State.near_raise _ _⟩
      · exact ⟨_, _, .refl _⟩

/-- R161: the slot, the LINK cause and D; LINK_LOSS is made pending. -/
theorem State.linkLoss_effect (s : State) :
    ∃ link picture light,
      State.Ripple { s with link := link, picture := picture, light := light } s.linkLoss := by
  unfold State.linkLoss
  simp only
  split
  · exact ⟨_, _, _, .refl _⟩
  · exact ⟨_, _, _, (State.near_raise _ _).ripple.trans (State.ripple_makePending _ _)⟩

/-- R168. -/
theorem State.send_frame (s : State) : ∃ intake sender, s.send = { s with intake := intake, sender := sender } := by
  unfold State.send
  split
  · exact ⟨_, _, rfl⟩
  · split
    · exact ⟨_, _, rfl⟩
    · exact ⟨_, _, rfl⟩

/-- R49 to R52. -/
theorem State.endGeneration_effect (s : State) :
    ∃ table gen picture,
      State.Near { s with table := table, gen := gen, picture := picture } s.endGeneration := by
  unfold State.endGeneration
  simp only
  repeat' split
  · exact ⟨_, _, _, State.near_raise _ _⟩
  · exact ⟨_, _, _, State.near_raise _ _⟩
  · exact ⟨_, _, _, .refl _⟩
  · exact ⟨_, _, _, .refl _⟩
  · exact ⟨_, _, _, .refl _⟩

theorem foldl_keeps {α β : Type} {P : α → Prop} {f : α → β → α} (h : ∀ x y, P x → P (f x y)) (l : List β) {x : α}
    (hx : P x) : P (l.foldl f x) := by
  induction l generalizing x with
  | nil => exact hx
  | cons y l ih => exact ih (h x y hx)

/-- R132: what the light unit's, the fans' and the protection unit's parts keep, the fan update keeps. -/
theorem State.fanUpdate_keeps {P R : State → Prop} {s : State}
    (hm : ∀ s : State, P s → R { s with
      light := s.light.closePeriod, fans := { s.fans with units := s.fans.units.map FanUnit.measured } })
    (hj : ∀ (s : State) x, R s → R (s.judgeFan x))
    (hr : ∀ s : State, R s → R { s with fans := { s.fans with reReport := false, curveSet := s.picture.orientation } })
    (hu : ∀ (t : State) x, R t → R (t.updateFan (s.fans.units.map (·.duty)) x)) (hs : P s) : R s.fanUpdate :=
  foldl_keeps hu _ (hr _ (foldl_keeps hj _ (hm _ hs)))

theorem State.judgeFan_keeps {P : State → Prop} (hf : ∀ (s : State) x u, P s → P (s.setFan x u))
    (hp : ∀ (s : State) x, P s → P (s.makePending x)) {s : State} (x : Fan) (hs : P s) : P (s.judgeFan x) := by
  unfold State.judgeFan
  simp only
  split
  · exact hp _ _ (hf _ _ _ hs)
  · exact hf _ _ _ hs

/-- R104: what the sensor's, the protection unit's and focus upkeep's parts keep, the window end keeps. -/
theorem State.windowEnd_keeps {P : State → Prop} {x : Sensor} {sample : Int}
    (hs : ∀ s : State, P s → P (s.setSensor x ((s.sensor x).sampled (s.sensors.threshold (s.sensor x)) sample)))
    (hp : ∀ (s : State) y, P s → P (s.makePending y))
    (hd : ∀ (s : State) d, P s → P { s with focus := { s.focus with desired := d } })
    (hu : ∀ s : State, s.upkeepDue = true → P s → P s.startUpkeep)
    (hn : ∀ s : State, P s → P (s.setSensor x (s.sensor x).nextWindow)) {s : State} (h : P s) :
    P (s.windowEnd x sample) := by
  unfold State.windowEnd
  simp only
  refine hn _ ?_
  have h1 := foldl_keeps hp (windowSources x (s.sensor x)
    ((s.sensor x).sampled (s.sensors.threshold (s.sensor x)) sample)) (hs s h)
  cases x
  · exact h1
  · exact h1
  · exact h1
  · simp only
    unfold State.upkeepWindow
    split
    · simp only
      split
      · exact hu _ (by assumption) (hd _ _ h1)
      · exact hd _ _ h1
    · exact h1
    · exact h1

/-! ### Messages -/

@[simp] theorem State.axis_handOver (s : State) (a b : Axis) (target : Nat) :
    (s.handOver a target).axis b = s.axis b := by
  cases a <;> rfl

/-- R92. -/
theorem placeCancelBody_frame (p : List Word) (s : State) : ∃ place, (placeCancelBody p s).1 = { s with place := place } := by
  unfold placeCancelBody
  refine readyThen_keeps (P := fun t => ∃ place, t = { s with place := place }) ⟨_, rfl⟩ fun x _ => ?_
  exact ⟨_, rfl⟩

/-- R19. -/
theorem installBody_frame (p : List Word) (s : State) : ∃ picture, (installBody p s).1 = { s with picture := picture } := by
  unfold installBody
  refine readyThen_keeps (P := fun t => ∃ picture, t = { s with picture := picture }) ⟨_, rfl⟩ fun x _ => ?_
  simp only
  split <;> exact ⟨_, rfl⟩

/-- R13. -/
theorem pictureModeBody_frame (p : List Word) (s : State) : ∃ picture, (pictureModeBody p s).1 = { s with picture := picture } := by
  unfold pictureModeBody
  refine readyThen_keeps (P := fun t => ∃ picture, t = { s with picture := picture }) ⟨_, rfl⟩ fun x _ => ?_
  exact ⟨_, rfl⟩

/-- R26. -/
theorem tableOpenBody_frame (p : List Word) (s : State) : ∃ table, (tableOpenBody p s).1 = { s with table := table } := by
  unfold tableOpenBody
  refine readyThen_keeps (P := fun t => ∃ table, t = { s with table := table }) ⟨_, rfl⟩ fun x _ => ?_
  simp only
  split <;> exact ⟨_, rfl⟩

/-- R27. -/
theorem tableRunBody_frame (p : List Word) (s : State) : ∃ table, (tableRunBody p s).1 = { s with table := table } := by
  unfold tableRunBody
  refine readyThen_keeps (P := fun t => ∃ table, t = { s with table := table }) ⟨_, rfl⟩ fun x _ => ?_
  simp only
  repeat' split
  all_goals exact ⟨_, rfl⟩

/-- R29. -/
theorem tableCommitBody_frame (p : List Word) (s : State) : ∃ table, (tableCommitBody p s).1 = { s with table := table } := by
  unfold tableCommitBody
  refine readyThen_keeps (P := fun t => ∃ table, t = { s with table := table }) ⟨_, rfl⟩ fun x _ => ?_
  simp only
  repeat' split
  all_goals exact ⟨_, rfl⟩

/-- R42, R43. -/
theorem cornersBody_frame (p : List Word) (s : State) : ∃ table gen, (cornersBody p s).1 = { s with table := table, gen := gen } := by
  unfold cornersBody
  refine readyThen_keeps (P := fun t => ∃ table gen, t = { s with table := table, gen := gen }) ⟨_, _, rfl⟩ fun x _ => ?_
  simp only
  repeat' split
  all_goals exact ⟨_, _, rfl⟩

/-- R60. -/
theorem lensCalBody_frame (p : List Word) (s : State) : ∃ lens, (lensCalBody p s).1 = { s with lens := lens } := by
  unfold lensCalBody
  refine readyThen_keeps (P := fun t => ∃ lens, t = { s with lens := lens }) ⟨_, rfl⟩ fun x _ => ?_
  simp only
  repeat' split
  all_goals exact ⟨_, rfl⟩

/-- R61. -/
theorem profileBody_frame (p : List Word) (s : State) : ∃ lens, (profileBody p s).1 = { s with lens := lens } := by
  unfold profileBody
  refine readyThen_keeps (P := fun t => ∃ lens, t = { s with lens := lens }) ⟨_, rfl⟩ fun x _ => ?_
  exact ⟨_, rfl⟩

/-- R96. -/
theorem focusTableBody_frame (p : List Word) (s : State) : ∃ focus, (focusTableBody p s).1 = { s with focus := focus } := by
  unfold focusTableBody
  refine readyThen_keeps (P := fun t => ∃ focus, t = { s with focus := focus }) ⟨_, rfl⟩ fun x _ => ?_
  exact ⟨_, rfl⟩

/-- R97. -/
theorem focusUpkeepBody_frame (p : List Word) (s : State) : ∃ focus, (focusUpkeepBody p s).1 = { s with focus := focus } := by
  unfold focusUpkeepBody
  refine readyThen_keeps (P := fun t => ∃ focus, t = { s with focus := focus }) ⟨_, rfl⟩ fun x _ => ?_
  exact ⟨_, rfl⟩

/-- R111. -/
theorem sensorSetBody_frame (p : List Word) (s : State) : ∃ sensors, (sensorSetBody p s).1 = { s with sensors := sensors } := by
  unfold sensorSetBody
  refine fieldsThen_keeps (P := fun t => ∃ sensors, t = { s with sensors := sensors }) ⟨_, rfl⟩ fun x _ => ?_
  exact ⟨_, rfl⟩

/-- R110. -/
theorem thresholdsBody_frame (p : List Word) (s : State) : ∃ sensors, (thresholdsBody p s).1 = { s with sensors := sensors } := by
  unfold thresholdsBody
  refine fieldsThen_keeps (P := fun t => ∃ sensors, t = { s with sensors := sensors }) ⟨_, rfl⟩ fun x _ => ?_
  exact ⟨_, rfl⟩

/-- R117. -/
theorem brightnessBody_frame (p : List Word) (s : State) : ∃ light, (brightnessBody p s).1 = { s with light := light } := by
  unfold brightnessBody
  refine fieldsThen_keeps (P := fun t => ∃ light, t = { s with light := light }) ⟨_, rfl⟩ fun x _ => ?_
  exact ⟨_, rfl⟩

/-- R143. -/
theorem fanCurveBody_frame (p : List Word) (s : State) : ∃ fans, (fanCurveBody p s).1 = { s with fans := fans } := by
  unfold fanCurveBody
  refine fieldsThen_keeps (P := fun t => ∃ fans, t = { s with fans := fans }) ⟨_, rfl⟩ fun x _ => ?_
  exact ⟨_, rfl⟩

/-- R144. -/
theorem fanLimitsBody_frame (p : List Word) (s : State) : ∃ fans, (fanLimitsBody p s).1 = { s with fans := fans } := by
  unfold fanLimitsBody
  refine fieldsThen_keeps (P := fun t => ∃ fans, t = { s with fans := fans }) ⟨_, rfl⟩ fun x _ => ?_
  exact ⟨_, rfl⟩

/-- R145. -/
theorem quietBody_frame (p : List Word) (s : State) : ∃ fans, (quietBody p s).1 = { s with fans := fans } := by
  unfold quietBody
  refine fieldsThen_keeps (P := fun t => ∃ fans, t = { s with fans := fans }) ⟨_, rfl⟩ fun x _ => ?_
  exact ⟨_, rfl⟩

/-- R172. -/
theorem eventAckBody_frame (p : List Word) (s : State) : ∃ sender, (eventAckBody p s).1 = { s with sender := sender } := by
  unfold eventAckBody
  refine fieldsThen_keeps (P := fun t => ∃ sender, t = { s with sender := sender }) ⟨_, rfl⟩ fun x _ => ?_
  exact ⟨_, rfl⟩

/-- R173. -/
theorem eventMaskBody_frame (p : List Word) (s : State) : ∃ sender, (eventMaskBody p s).1 = { s with sender := sender } := by
  unfold eventMaskBody
  refine fieldsThen_keeps (P := fun t => ∃ sender, t = { s with sender := sender }) ⟨_, rfl⟩ fun x _ => ?_
  exact ⟨_, rfl⟩

/-- R154. -/
theorem clearBody_frame (p : List Word) (s : State) : ∃ prot, (clearBody p s).1 = { s with prot := prot } := by
  unfold clearBody
  refine fieldsThen_keeps (P := fun t => ∃ prot, t = { s with prot := prot }) ⟨_, rfl⟩ fun x _ => ?_
  simp only
  unfold State.clearSource
  split <;> exact ⟨_, rfl⟩

/-- R175. -/
theorem countersBody_frame (p : List Word) (s : State) : ∃ link intake place, (countersBody p s).1 = { s with link := link, intake := intake, place := place } := by
  unfold countersBody
  refine fieldsThen_keeps (P := fun t => ∃ link intake place, t = { s with link := link, intake := intake, place := place }) ⟨_, _, _, rfl⟩ fun x _ => ?_
  simp only
  split <;> exact ⟨_, _, _, rfl⟩

/-- R180. -/
theorem causeBody_frame (p : List Word) (s : State) : ∃ startup, (causeBody p s).1 = { s with startup := startup } := by
  unfold causeBody
  refine fieldsThen_keeps (P := fun t => ∃ startup, t = { s with startup := startup }) ⟨_, rfl⟩ fun x _ => ?_
  simp only
  split <;> exact ⟨_, rfl⟩

/-- R72. -/
theorem stopBody_effect (p : List Word) (s : State) : s.Near (stopBody p s).1 := by
  unfold stopBody
  refine readyThen_keeps (P := fun t => s.Near t) (.refl s) fun x _ => ?_
  exact s.near_stopAxis x

/-- R75. -/
theorem lockBody_effect (p : List Word) (s : State) : ∃ lens, State.Near { s with lens := lens } (lockBody p s).1 := by
  unfold lockBody
  refine readyThen_keeps (P := fun t => ∃ lens, State.Near { s with lens := lens } t) ⟨_, .refl _⟩ fun x _ => ?_
  exact ⟨_, s.setHostLock_near x true⟩

/-- R75. -/
theorem unlockBody_effect (p : List Word) (s : State) : ∃ lens, State.Near { s with lens := lens } (unlockBody p s).1 := by
  unfold unlockBody
  refine readyThen_keeps (P := fun t => ∃ lens, State.Near { s with lens := lens } t) ⟨_, .refl _⟩ fun x _ => ?_
  exact ⟨_, s.setHostLock_near x false⟩

/-- R73. -/
theorem holdBody_effect (p : List Word) (s : State) : s.Ripple (holdBody p s).1 := by
  unfold holdBody
  refine readyThen_keeps (P := fun t => s.Ripple t) (.refl s) fun x _ => ?_
  split <;> first | exact .refl s | exact s.ripple_decelerate _ _ _

/-- R74. -/
theorem resumeBody_effect (p : List Word) (s : State) : s.Ripple (resumeBody p s).1 := by
  unfold resumeBody
  refine readyThen_keeps (P := fun t => s.Ripple t) (.refl s) fun x _ => ?_
  split
  · exact .refl s
  · split <;> first | exact .refl s | exact s.ripple_resumeMove _ _

/-- R66, R68. -/
theorem moveBody_effect (p : List Word) (s : State) : s.Ripple (moveBody p s).1 := by
  unfold moveBody
  refine readyThen_keeps (P := fun t => s.Ripple t) (.refl s) fun x _ => ?_
  simp only
  split
  · exact .refl s
  · refine State.Ripple.trans (State.Near.ripple (State.Near.trans (s.near_handOver _ _) (State.near_setAxis _ _ _ ?_ ?_ ?_)))
      (State.ripple_beginMove _ _ _ _ _)
    all_goals rw [State.axis_handOver]
    all_goals first | rfl | (unfold AxisUnit.push; split <;> rfl)

/-- R70. -/
theorem returnBody_effect (p : List Word) (s : State) : s.Ripple (returnBody p s).1 := by
  unfold returnBody
  refine readyThen_keeps (P := fun t => s.Ripple t) (.refl s) fun x _ => ?_
  simp only
  split
  · exact .refl s
  · exact .refl s
  · refine State.Ripple.trans (State.Near.ripple (State.Near.trans (s.near_handOver _ _) (State.near_setAxis _ _ _ ?_ ?_ ?_)))
      (State.ripple_beginMove _ _ _ _ _)
    all_goals rw [State.axis_handOver]

/-- R181. -/
theorem homeBody_effect (p : List Word) (s : State) : s.Ripple (homeBody p s).1 := by
  unfold homeBody
  refine readyThen_keeps (P := fun t => s.Ripple t) (.refl s) fun x _ => ?_
  repeat' split
  · exact .refl s
  · exact .refl s
  · exact s.ripple_homeAxes _

/-- R85, R86. -/
theorem placeBody_effect (p : List Word) (s : State) : s.Ripple (placeBody p s).1 := by
  unfold placeBody
  refine readyThen_keeps (P := fun t => s.Ripple t) (.refl s) fun x _ => ?_
  simp only
  repeat' split
  · exact .refl s
  · exact .refl s
  · exact .refl s
  · exact s.ripple_startPlacement _ _

/-- R156, R157. -/
theorem lowerBody_effect (p : List Word) (s : State) : ∃ prot, State.Ripple { s with prot := prot } (lowerBody p s).1 := by
  unfold lowerBody
  refine fieldsThen_keeps (P := fun t => ∃ prot, State.Ripple { s with prot := prot } t) ⟨_, .refl _⟩ fun x _ => ?_
  repeat' split
  · exact ⟨_, .refl _⟩
  · exact ⟨_, .refl _⟩
  · unfold State.lowerTo
    simp only
    split
    · exact ⟨_, .refl _⟩
    · exact ⟨_, (State.near_raise _ _).ripple.trans (State.ripple_deliver _)⟩

/-- R149. -/
theorem levelsBody_effect (p : List Word) (s : State) : ∃ prot, State.Ripple { s with prot := prot } (levelsBody p s).1 := by
  unfold levelsBody
  refine fieldsThen_keeps (P := fun t => ∃ prot, State.Ripple { s with prot := prot } t) ⟨_, .refl _⟩ fun x _ => ?_
  exact ⟨_, State.ripple_accept _⟩

/-- R152. -/
theorem actionsBody_effect (p : List Word) (s : State) : ∃ prot, State.Ripple { s with prot := prot } (actionsBody p s).1 := by
  unfold actionsBody
  refine fieldsThen_keeps (P := fun t => ∃ prot, State.Ripple { s with prot := prot } t) ⟨_, .refl _⟩ fun x _ => ?_
  simp only
  split
  · exact ⟨_, State.ripple_deliver _⟩
  · exact ⟨_, .refl _⟩

end Sys2Proof.Machine
end

