-- ==== Sys2Proof/Laws/Fans.lean ====
section
/-! SUPPORT. What a fan update can do to one fan (R132, R136, R137, R140): the stall judgement with the deliveries
it may set off, then the move from the duty the update found. -/

namespace Sys2Proof.Machine

/-- A delivery and the stall judgement of a fan change nothing for one another (R140, R141). -/
theorem FanUnit.Delivered.judged {u v : FanUnit} (h : u.Delivered v) : u.judged.Delivered v.judged := by
  rcases h.change with rfl | ⟨hs, e⟩ | ⟨hs, rfl⟩
  · exact .refl _
  · generalize v.duty = d at e
    subst e
    rcases hs with hs | hs
    · simp only [FanUnit.judged, hs]
      split
      · split <;> exact ⟨rfl, rfl, rfl, rfl, rfl, rfl, rfl, rfl, rfl, rfl, by simp, by simp, .inr (.inl ⟨by simp, rfl⟩)⟩
      · exact ⟨rfl, rfl, rfl, rfl, rfl, rfl, rfl, rfl, rfl, rfl, by simp, by simp, .inr (.inl ⟨by simp, rfl⟩)⟩
    · simp only [FanUnit.judged, hs]
      split
      · exact ⟨rfl, rfl, rfl, rfl, rfl, rfl, rfl, rfl, rfl, rfl, by simp, by simp, .inr (.inl ⟨by simp, rfl⟩)⟩
      · split <;> exact ⟨rfl, rfl, rfl, rfl, rfl, rfl, rfl, rfl, rfl, rfl, by simp, by simp, .inr (.inl ⟨by simp, rfl⟩)⟩
  · have : u.judged = u := by unfold FanUnit.judged; rw [hs]
    rw [this]
    exact h

/-- The STALL source of a fan is made pending at its judgement (R131, R140). -/
def FanUnit.reported (u : FanUnit) (again : Bool) : Prop :=
  u.judged.state = .stalled ∧ (u.state ≠ .stalled ∨ again = true)

/-- The stall judgement of one fan (R140). -/
theorem State.judgeFan_spec (s : State) (x : Fan) :
    (s.setFan x (s.fan x).judged).Ripple (s.judgeFan x)
      ∧ ((s.fan x).reported s.fans.reReport → (s.judgeFan x).prot.pending.get (stallSource x) = true)
      ∧ (¬ (s.fan x).reported s.fans.reReport → s.judgeFan x = s.setFan x (s.fan x).judged) := by
  unfold State.judgeFan FanUnit.reported
  simp only
  split
  · rename_i h
    exact ⟨State.ripple_makePending _ _, fun _ => State.makePending_get _ _, fun n => absurd h n⟩
  · rename_i h
    exact ⟨.refl _, fun r => absurd r h, fun _ => rfl⟩

/-- What the stall judgements of some fans leave (R132, step 3). -/
structure State.Judged (s t : State) (xs : List Fan) : Prop where
  pending : t.pending = s.pending
  hold : t.hold = s.hold
  pins : t.pins = s.pins
  startup : t.startup = s.startup
  link : t.link = s.link
  mem : t.mem = s.mem
  intake : t.intake = s.intake
  table : t.table = s.table
  gen : t.gen = s.gen
  sensors : t.sensors = s.sensors
  orientation : t.picture.orientation = s.picture.orientation
  light : s.light.Delivered t.light
  quiet : t.fans.quiet = s.fans.quiet
  reReport : t.fans.reReport = s.fans.reReport
  judged : ∀ x ∈ xs, (s.fan x).judged.Delivered (t.fan x)
  others : ∀ x, x ∉ xs → (s.fan x).Delivered (t.fan x)
  pend : ∀ x, s.prot.pending.get x = true → t.prot.pending.get x = true
  reported : ∀ x ∈ xs, (s.fan x).reported s.fans.reReport → t.prot.pending.get (stallSource x) = true
  silent : (∀ x ∈ xs, ¬ (s.fan x).reported s.fans.reReport) →
    t = { s with fans := { s.fans with units := t.fans.units } }

theorem FanUnit.Delivered.reported {u v : FanUnit} (h : u.Delivered v) (again : Bool) :
    u.reported again ↔ v.reported again := by
  simp only [FanUnit.reported, ne_eq, h.judged.stalled, h.stalled]

theorem State.judged_foldl (xs : List Fan) (hx : xs.Nodup) (s : State) : s.Judged (xs.foldl State.judgeFan s) xs := by
  induction xs generalizing s with
  | nil =>
    exact ⟨rfl, rfl, rfl, rfl, rfl, rfl, rfl, rfl, rfl, rfl, rfl, ⟨rfl, le_rfl, .inl rfl⟩, rfl, rfl, by simp,
      fun _ _ => .refl _, fun _ h => h, by simp, fun _ => rfl⟩
  | cons x xs ih =>
    obtain ⟨hn, hd⟩ := List.nodup_cons.1 hx
    obtain ⟨rip, rep, sil⟩ := s.judgeFan_spec x
    have j := ih hd (s.judgeFan x)
    have fd := rip.fansDelivered
    have pd := rip.delivered
    have own : (s.fan x).judged.Delivered ((s.judgeFan x).fan x) := by
      have := fd.units x
      rwa [← State.fan, ← State.fan, State.fan_setFan_same] at this
    have oth : ∀ y, y ≠ x → (s.fan y).Delivered ((s.judgeFan x).fan y) := by
      intro y hy
      have := fd.units y
      rwa [← State.fan, ← State.fan, State.fan_setFan_ne _ _ hy] at this
    have re : (s.judgeFan x).fans.reReport = s.fans.reReport := fd.reReport
    simp only [List.foldl_cons]
    refine ⟨j.pending.trans rip.pending, j.hold.trans rip.hold, j.pins.trans rip.pins, j.startup.trans rip.startup,
      j.link.trans rip.link, j.mem.trans rip.mem, j.intake.trans rip.intake, j.table.trans rip.table,
      j.gen.trans rip.gen, j.sensors.trans rip.sensors, j.orientation.trans pd.orientation, ?_,
      j.quiet.trans fd.quiet, j.reReport.trans re, ?_, ?_, fun y h => j.pend y (rip.pend y h), ?_, ?_⟩
    · have l := rip.lightDelivered
      refine ⟨?_, j.light.d.trans l.d, ?_⟩
      · conv => lhs; rw [j.light.rest, l.rest]
        rfl
      · rcases j.light.within with e | e
        · rcases l.within with e' | e'
          · exact .inl (e.trans e')
          · exact .inr (by rw [e]; exact e')
        · exact .inr e
    · intro y hy
      by_cases hyx : y = x
      · subst hyx; exact own.trans (j.others y hn)
      · have hm : y ∈ xs := by simpa [hyx] using hy
        exact (oth y hyx).judged.trans (j.judged y hm)
    · intro y hy
      simp only [List.mem_cons, not_or] at hy
      exact (oth y hy.1).trans (j.others y hy.2)
    · intro y hy hr
      by_cases hyx : y = x
      · subst hyx; exact j.pend _ (rep hr)
      · have hm : y ∈ xs := by simpa [hyx] using hy
        exact j.reported y hm (by rw [re]; exact ((oth y hyx).reported _).1 hr)
    · intro h
      have h1 := sil (h x (by simp))
      have h2 := j.silent fun y hy => by
        have hyx : y ≠ x := fun e => hn (e ▸ hy)
        rw [re, ← (oth y hyx).reported]
        exact h y (by simp [hy])
      rw [h2, h1]
      rfl

/-- The terms and the demand of a fan, from the state as the judgements leave it (R132 to R135). -/
def State.demanded (s : State) (u : FanUnit) : FanUnit :=
  let o := s.picture.orientation
  let reading := (s.sensor u.record.sensor).fanReading
  let curve := u.record.curveValue o reading
  let ff := u.record.feedForward s.light.avg
  { u with
    lastCurve := curve, lastFF := ff, readingUsed := reading
    lastDemand := demandOf curve ff s.fans.floor u.record.quietCap (s.fans.quiet && !s.fans.capLifted) }

theorem State.updateFan_eq (before : PerFan Nat) (s : State) (x : Fan) :
    s.updateFan before x
      = s.setFan x ((s.demanded (s.fan x)).moved (before.get x) (s.demanded (s.fan x)).lastDemand s.fans.floor) := rfl

/-- Steps 4 and 5 over the fans: each moves from its own duty and nothing beside the fans' units changes. -/
theorem State.updateFans_eq (before : PerFan Nat) (t : State) :
    allFans.foldl (State.updateFan before) t
      = { t with fans := { t.fans with units := (allFans.foldl (State.updateFan before) t).fans.units } }
    ∧ ∀ x, (allFans.foldl (State.updateFan before) t).fan x
        = (t.demanded (t.fan x)).moved (before.get x) (t.demanded (t.fan x)).lastDemand t.fans.floor := by
  simp only [allFans, List.foldl_cons, List.foldl_nil, State.updateFan_eq]
  exact ⟨rfl, fun x => by cases x <;> rfl⟩

/-- A fan update (R132): beside the fans and the light unit's period, what the stall judgements leave; each fan is
measured and judged, may meet a floor delivered at step 3, and moves from the duty the update found. -/
theorem State.fanUpdate_spec (s : State) :
    ∃ t, State.Judged { s with
          light := s.light.closePeriod, fans := { s.fans with units := s.fans.units.map FanUnit.measured } } t allFans
      ∧ s.fanUpdate = { t with fans := { t.fans with
          reReport := false, curveSet := t.picture.orientation, units := s.fanUpdate.fans.units } }
      ∧ ∀ x, (s.fan x).measured.judged.Delivered (t.fan x)
          ∧ s.fanUpdate.fan x
            = (t.demanded (t.fan x)).moved (s.fan x).duty (t.demanded (t.fan x)).lastDemand t.fans.floor := by
  have j := State.judged_foldl allFans (by decide) { s with
    light := s.light.closePeriod, fans := { s.fans with units := s.fans.units.map FanUnit.measured } }
  have e : s.fanUpdate = allFans.foldl (State.updateFan (s.fans.units.map (·.duty))) _ := rfl
  revert j e
  generalize allFans.foldl State.judgeFan _ = t
  intro j e
  have u := State.updateFans_eq (s.fans.units.map (·.duty))
    { t with fans := { t.fans with reReport := false, curveSet := t.picture.orientation } }
  rw [← e] at u
  refine ⟨t, j, u.1, fun x => ⟨?_, ?_⟩⟩
  · have := j.judged x (by cases x <;> decide)
    simpa only [State.fan, PerFan.get_map] using this
  · have := u.2 x
    rw [PerFan.get_map] at this
    exact this

end Sys2Proof.Machine
end

