-- ==== Sys2Proof/Laws/Store.lean ====
section
/-! SUPPORT. The addressed memories: what a read gives after a write, and that every operation keeps the
canonical form. -/

namespace Sys2Proof.Machine

variable {α : Type}

/-! ### Stores -/

theorem storeFind_put_same (s : Store α) (k : Nat) (x : α) : storeFind (storePut s k x) k = some x := by
  induction s with
  | nil => simp [storePut, storeFind]
  | cons p rest ih =>
    obtain ⟨j, y⟩ := p
    simp only [storePut]
    split
    · simp [storeFind]
    · split
      · simp [storeFind]
      · rename_i h _
        have : ¬ j = k := by omega
        simp [storeFind, this, ih]

theorem storeFind_put_ne (s : Store α) {k n : Nat} (x : α) (h : n ≠ k) :
    storeFind (storePut s k x) n = storeFind s n := by
  induction s with
  | nil => simp [storePut, storeFind, Ne.symm h]
  | cons p rest ih =>
    obtain ⟨j, y⟩ := p
    simp only [storePut]
    split
    · simp [storeFind, Ne.symm h]
    · split
      · subst_vars; simp [storeFind, Ne.symm h]
      · simp [storeFind, ih]

theorem storePut_mem {s : Store α} {k : Nat} {x : α} {p : Nat × α} (h : p ∈ storePut s k x) :
    p = (k, x) ∨ p ∈ s := by
  induction s with
  | nil => simpa [storePut] using h
  | cons q rest ih =>
    obtain ⟨j, y⟩ := q
    simp only [storePut] at h
    split at h
    · simpa using h
    · split at h
      · rcases List.mem_cons.1 h with h | h
        · exact .inl h
        · exact .inr (List.mem_cons_of_mem _ h)
      · rcases List.mem_cons.1 h with h | h
        · exact .inr (h ▸ List.mem_cons_self)
        · exact (ih h).imp_right (List.mem_cons_of_mem _)

theorem storeErase_mem {s : Store α} {k : Nat} {p : Nat × α} (h : p ∈ storeErase s k) : p ∈ s := by
  induction s with
  | nil => simp [storeErase] at h
  | cons q rest ih =>
    obtain ⟨j, y⟩ := q
    simp only [storeErase] at h
    split at h
    · exact List.mem_cons_of_mem _ h
    · rcases List.mem_cons.1 h with h | h
      · exact h ▸ List.mem_cons_self
      · exact List.mem_cons_of_mem _ (ih h)

theorem storePut_rising {s : Store α} (h : storeRising s) (k : Nat) (x : α) : storeRising (storePut s k x) := by
  induction s with
  | nil => simp [storePut, storeRising]
  | cons q rest ih =>
    obtain ⟨j, y⟩ := q
    obtain ⟨hj, hrest⟩ := List.pairwise_cons.1 h
    simp only [storePut]
    split
    · refine List.pairwise_cons.2 ⟨?_, h⟩
      intro p hp
      rcases List.mem_cons.1 hp with hp | hp
      · subst hp; assumption
      · have := hj p hp; simp only at this ⊢; omega
    · split
      · subst_vars; exact List.pairwise_cons.2 ⟨hj, hrest⟩
      · refine List.pairwise_cons.2 ⟨?_, ih hrest⟩
        intro p hp
        rcases storePut_mem hp with hp | hp
        · subst hp; simp only; omega
        · exact hj p hp

theorem storeErase_rising {s : Store α} (h : storeRising s) (k : Nat) : storeRising (storeErase s k) := by
  induction s with
  | nil => simp [storeErase, storeRising]
  | cons q rest ih =>
    obtain ⟨j, y⟩ := q
    obtain ⟨hj, hrest⟩ := List.pairwise_cons.1 h
    simp only [storeErase]
    split
    · exact hrest
    · exact List.pairwise_cons.2 ⟨fun p hp => hj p (storeErase_mem hp), ih hrest⟩

theorem storeFind_above {s : Store α} {j : Nat} (h : ∀ p ∈ s, j < p.1) : storeFind s j = none := by
  induction s with
  | nil => rfl
  | cons q rest ih =>
    obtain ⟨i, y⟩ := q
    have hi := h (i, y) List.mem_cons_self
    have : ¬ i = j := by simp only at hi; omega
    simp [storeFind, this, ih fun p hp => h p (List.mem_cons_of_mem _ hp)]

theorem storeFind_erase_same {s : Store α} (h : storeRising s) (k : Nat) : storeFind (storeErase s k) k = none := by
  induction s with
  | nil => rfl
  | cons q rest ih =>
    obtain ⟨j, y⟩ := q
    obtain ⟨hj, hrest⟩ := List.pairwise_cons.1 h
    simp only [storeErase]
    split
    · subst_vars; exact storeFind_above hj
    · rename_i hne
      simp [storeFind, hne, ih hrest]

theorem storeFind_erase_ne (s : Store α) {k n : Nat} (h : n ≠ k) : storeFind (storeErase s k) n = storeFind s n := by
  induction s with
  | nil => rfl
  | cons q rest ih =>
    obtain ⟨j, y⟩ := q
    simp only [storeErase]
    split
    · subst_vars; simp [storeFind, Ne.symm h]
    · simp [storeFind, ih]

/-! ### Banks -/

/-- Read after write, the same line (R27). -/
theorem bankRecord_write_same {b : Bank} (h : bankWf b) (j : Nat) (r : LineRecord) :
    bankRecord (bankWrite b j r) j = r := by
  unfold bankRecord bankWrite
  by_cases hr : r = darkRecord
  · simp [hr, storeFind_erase_same h.1]
  · simp [hr, storeFind_put_same]

/-- Read after write, another line. -/
theorem bankRecord_write_ne (b : Bank) {j n : Nat} (r : LineRecord) (h : n ≠ j) :
    bankRecord (bankWrite b j r) n = bankRecord b n := by
  unfold bankRecord bankWrite
  by_cases hr : r = darkRecord
  · simp [hr, storeFind_erase_ne _ h]
  · simp [hr, storeFind_put_ne _ _ h]

theorem bankWrite_wf {b : Bank} (h : bankWf b) {j : Nat} (hj : j < Config.panelRows) (r : LineRecord) :
    bankWf (bankWrite b j r) := by
  obtain ⟨h1, h2, h3⟩ := h
  unfold bankWrite
  by_cases hr : r = darkRecord
  · simp only [hr, if_true]
    exact ⟨storeErase_rising h1 j, fun p hp => h2 p (storeErase_mem hp), fun p hp => h3 p (storeErase_mem hp)⟩
  · simp only [hr, if_false]
    refine ⟨storePut_rising h1 j r, fun p hp => ?_, fun p hp => ?_⟩
    · rcases storePut_mem hp with hp | hp
      · simpa [hp] using hj
      · exact h2 p hp
    · rcases storePut_mem hp with hp | hp
      · simpa [hp] using hr
      · exact h3 p hp

@[simp] theorem bankWrite_size (b : Bank) (j : Nat) (r : LineRecord) : (bankWrite b j r).size = b.size := rfl

@[simp] theorem bankWrite_source (b : Bank) (j : Nat) (r : LineRecord) : (bankWrite b j r).source = b.source := rfl

theorem bankWriteRun_wf {b : Bank} (h : bankWf b) {j : Nat} {rs : List LineRecord}
    (hj : j + rs.length ≤ Config.panelRows) : bankWf (bankWriteRun b j rs) := by
  induction rs generalizing b j with
  | nil => exact h
  | cons r rest ih =>
    have : j + 1 + rest.length ≤ Config.panelRows := by simp only [List.length_cons] at hj; omega
    exact ih (bankWrite_wf h (by simp only [List.length_cons] at hj; omega) r) this

/-- A run changes no line outside it (R27). -/
theorem bankRecord_run_outside (b : Bank) {j n : Nat} (rs : List LineRecord) (h : n < j ∨ j + rs.length ≤ n) :
    bankRecord (bankWriteRun b j rs) n = bankRecord b n := by
  induction rs generalizing b j with
  | nil => rfl
  | cons r rest ih =>
    simp only [List.length_cons] at h
    rw [bankWriteRun, ih _ (by omega), bankRecord_write_ne _ _ (by omega)]

/-- A run leaves record i of it on line j + i (R27). -/
theorem bankRecord_run_inside {b : Bank} (hb : bankWf b) {j i : Nat} {rs : List LineRecord} (hi : i < rs.length)
    (hj : j + rs.length ≤ Config.panelRows) : bankRecord (bankWriteRun b j rs) (j + i) = rs[i] := by
  induction rs generalizing b j i with
  | nil => simp at hi
  | cons r rest ih =>
    simp only [List.length_cons] at hi hj
    have hw := bankWrite_wf hb (show j < Config.panelRows by omega) r
    cases i with
    | zero =>
      rw [bankWriteRun, bankRecord_run_outside _ _ (by omega)]
      simpa using bankRecord_write_same hb j r
    | succ i =>
      have := ih hw (i := i) (j := j + 1) (by omega) (by omega)
      rw [bankWriteRun, show j + (i + 1) = j + 1 + i by omega, this]
      rfl

/-- A cleared bank has the form. -/
theorem bankWf_empty (z : Size) (x : BankSource) : bankWf ⟨z, x, []⟩ :=
  ⟨List.Pairwise.nil, by simp, by simp⟩

/-! ### Frame memory -/

/-- The form of one slot's rows. -/
def rowsWf (rows : Store (List Sample)) : Prop :=
  storeRising rows ∧ ∀ p ∈ rows, p.1 < Config.panelRows ∧ p.2 ≠ [] ∧ p.2.length ≤ Config.panelColumns

theorem frameWf_iff (m : FrameMemory) : frameWf m ↔ rowsWf m.s0 ∧ rowsWf m.s1 := Iff.rfl

theorem rowsWf_find {rows : Store (List Sample)} (h : rowsWf rows) (k : Nat) :
    ((storeFind rows k).getD []).length ≤ Config.panelColumns := by
  replace h := h.2
  induction rows with
  | nil => simp [storeFind]
  | cons q rest ih =>
    obtain ⟨j, y⟩ := q
    simp only [storeFind]
    split
    · exact (h (j, y) List.mem_cons_self).2.2
    · exact ih fun p hp => h p (List.mem_cons_of_mem _ hp)

theorem writeRow_wf {m : FrameMemory} (h : frameWf m) (slot : SlotId) {row : Nat} {xs : List Sample}
    (hrow : row < Config.panelRows) (hxs : xs.length ≤ Config.panelColumns) :
    frameWf (m.writeRow slot row xs) := by
  have key : ∀ {rows : Store (List Sample)}, rowsWf rows →
      xs ++ ((storeFind rows row).getD []).drop xs.length ≠ [] →
      rowsWf (storePut rows row (xs ++ ((storeFind rows row).getD []).drop xs.length)) := by
    intro rows hr hne
    refine ⟨storePut_rising hr.1 _ _, fun p hp => ?_⟩
    rcases storePut_mem hp with hp | hp
    · subst hp
      refine ⟨hrow, hne, ?_⟩
      have := rowsWf_find hr row
      simp only [List.length_append, List.length_drop]
      omega
    · exact hr.2 p hp
  unfold FrameMemory.writeRow
  simp only
  split
  · exact h
  · cases slot
    · exact ⟨key h.1 (by assumption), h.2⟩
    · exact ⟨h.1, key h.2 (by assumption)⟩

/-- The contents after they become undefined have the form (R3). -/
theorem forget_wf (m : FrameMemory) : frameWf m.forget := by
  simp [FrameMemory.forget, frameWf, storeRising]

/-- A sample that a row's write covers reads back (R1). -/
theorem sample_writeRow_same (m : FrameMemory) (slot : SlotId) (row : Nat) (xs : List Sample) {col : Nat}
    (h : col < xs.length) : (m.writeRow slot row xs).sample slot row col = xs[col] := by
  have hne : xs ++ ((storeFind (m.rows slot) row).getD []).drop xs.length ≠ [] := by
    intro hc
    simp only [List.append_eq_nil_iff] at hc
    simp [hc.1] at h
  have hrows : ∀ r, (m.withRows slot r).rows slot = r := by intro r; cases slot <;> rfl
  simp [FrameMemory.writeRow, hne, FrameMemory.sample, hrows, storeFind_put_same, List.getElem?_append_left h,
    List.getElem?_eq_getElem h]

/-- Every sample outside the columns a write covers reads as before (R1). -/
theorem sample_writeRow_other (m : FrameMemory) (slot slot' : SlotId) (row row' : Nat) (xs : List Sample)
    (col : Nat) (h : slot' ≠ slot ∨ row' ≠ row ∨ xs.length ≤ col) :
    (m.writeRow slot row xs).sample slot' row' col = m.sample slot' row' col := by
  unfold FrameMemory.writeRow
  simp only
  split
  · rfl
  · have hepoch : ∀ r, (m.withRows slot r).epoch = m.epoch := by intro r; cases slot <;> rfl
    by_cases hs : slot' = slot
    · subst hs
      have hrows : ∀ r, (m.withRows slot' r).rows slot' = r := by intro r; cases slot' <;> rfl
      by_cases hr : row' = row
      · subst hr
        have hc : xs.length ≤ col := by simpa using h
        simp only [FrameMemory.sample, hrows, storeFind_put_same, hepoch, Option.getD_some]
        rw [List.getElem?_append_right hc, List.getElem?_drop]
        rw [show xs.length + (col - xs.length) = col by omega]
      · simp only [FrameMemory.sample, hrows, storeFind_put_ne _ _ hr, hepoch]
    · have hrows : ∀ r, (m.withRows slot r).rows slot' = m.rows slot' := by
        intro r; cases slot <;> cases slot' <;> first | rfl | exact absurd rfl hs
      simp only [FrameMemory.sample, hrows, hepoch]

/-! ### After reset -/

theorem reset_frameWf : frameWf State.reset.mem := by
  simp [State.reset, frameWf, storeRising]

theorem reset_bankWf : bankWf State.reset.table.bankA ∧ bankWf State.reset.table.bankB :=
  ⟨bankWf_empty _ _, bankWf_empty _ _⟩

end Sys2Proof.Machine
end

