-- ==== Sys2Proof/Laws/Generation.lean ====
section
/-! SUPPORT. The integers of Machine/Generation.lean are the exact rationals of R45, and the rounding of the
record fields is the rounding of spec 00 on those rationals. -/

namespace Sys2Proof.Machine

/-! ### The values of a line (R45) -/

/-- xl over the height of the left edge. -/
theorem edgeLine_xl (c : CornerSet) (z : Size) (j : Nat) (h : c.tl.y < c.bl.y) :
    ((edgeLine c z j).xlN : ℚ) / (edgeLine c z j).dl
      = c.tl.x + (c.bl.x - c.tl.x) * ((j : ℚ) - c.tl.y) / (c.bl.y - c.tl.y) := by
  have hd : ((c.bl.y : ℚ) - c.tl.y) ≠ 0 := by
    have : (c.tl.y : ℚ) < c.bl.y := by exact_mod_cast h
    exact sub_ne_zero.2 (ne_of_gt this)
  simp only [edgeLine]
  push_cast
  field_simp

theorem edgeLine_xr (c : CornerSet) (z : Size) (j : Nat) (h : c.tr.y < c.br.y) :
    ((edgeLine c z j).xrN : ℚ) / (edgeLine c z j).dr
      = c.tr.x + (c.br.x - c.tr.x) * ((j : ℚ) - c.tr.y) / (c.br.y - c.tr.y) := by
  have hd : ((c.br.y : ℚ) - c.tr.y) ≠ 0 := by
    have : (c.tr.y : ℚ) < c.br.y := by exact_mod_cast h
    exact sub_ne_zero.2 (ne_of_gt this)
  simp only [edgeLine]
  push_cast
  field_simp

theorem edgeLine_vl (c : CornerSet) (z : Size) (j : Nat) :
    ((edgeLine c z j).vlN : ℚ) / (edgeLine c z j).dl
      = ((z.h : ℚ) - 1) * ((j : ℚ) - c.tl.y) / (c.bl.y - c.tl.y) := by
  simp only [edgeLine]
  push_cast
  rfl

theorem edgeLine_vr (c : CornerSet) (z : Size) (j : Nat) :
    ((edgeLine c z j).vrN : ℚ) / (edgeLine c z j).dr
      = ((z.h : ℚ) - 1) * ((j : ℚ) - c.tr.y) / (c.br.y - c.tr.y) := by
  simp only [edgeLine]
  push_cast
  rfl

/-- wd = xr − xl over the product of the heights. -/
theorem EdgeLine.wd_eq (e : EdgeLine) (hl : 0 < e.dl) (hr : 0 < e.dr) :
    (e.wdN : ℚ) / (e.dl * e.dr) = (e.xrN : ℚ) / e.dr - (e.xlN : ℚ) / e.dl := by
  have h1 : (e.dl : ℚ) ≠ 0 := by exact_mod_cast hl.ne'
  have h2 : (e.dr : ℚ) ≠ 0 := by exact_mod_cast hr.ne'
  simp only [EdgeLine.wdN]
  push_cast
  field_simp

/-- The width test is the comparison of the exact width (R46). -/
theorem EdgeLine.tooNarrow_iff (e : EdgeLine) (z : Size) (hl : 0 < e.dl) (hr : 0 < e.dr) :
    e.tooNarrow z = true ↔
      (e.wdN : ℚ) / (e.dl * e.dr) < ((z.w : ℚ) - 1) / 4 ∨ (e.wdN : ℚ) / (e.dl * e.dr) < 64 := by
  have hp : (0 : ℚ) < (e.dl : ℚ) * e.dr := by
    have h1 : (0 : ℚ) < e.dl := by exact_mod_cast hl
    have h2 : (0 : ℚ) < e.dr := by exact_mod_cast hr
    exact mul_pos h1 h2
  simp only [EdgeLine.tooNarrow, Bool.or_eq_true, decide_eq_true_eq]
  rw [div_lt_div_iff₀ hp (by norm_num), div_lt_iff₀ hp]
  constructor
  · rintro (h | h)
    · left
      have : ((4 * e.wdN : ℤ) : ℚ) < ((((z.w : ℤ) - 1) * (e.dl * e.dr) : ℤ) : ℚ) := by exact_mod_cast h
      push_cast at this
      linarith
    · right
      have : ((e.wdN : ℤ) : ℚ) < ((64 * (e.dl * e.dr) : ℤ) : ℚ) := by exact_mod_cast h
      push_cast at this
      linarith
  · rintro (h | h)
    · left
      have : ((4 * e.wdN : ℤ) : ℚ) < ((((z.w : ℤ) - 1) * (e.dl * e.dr) : ℤ) : ℚ) := by push_cast; linarith
      exact_mod_cast this
    · right
      have : ((e.wdN : ℤ) : ℚ) < ((64 * (e.dl * e.dr) : ℤ) : ℚ) := by push_cast; linarith
      exact_mod_cast this

theorem floor_div_eq (n : ℤ) {d : ℤ} (hd : 0 < d) : ⌊(n : ℚ) / d⌋ = n / d := by
  lift d to ℕ using hd.le
  exact_mod_cast Rat.floor_intCast_div_natCast n d

/-- The left end of the span: the ceiling of xl, not below 0 (R47). -/
theorem EdgeLine.xLeft_eq (e : EdgeLine) (hl : 0 < e.dl) : e.xLeft = max 0 ⌈(e.xlN : ℚ) / e.dl⌉ := by
  simp only [EdgeLine.xLeft]
  have : (e.xlN : ℚ) / e.dl = -(((-e.xlN : ℤ) : ℚ) / ((e.dl : ℤ) : ℚ)) := by push_cast; ring
  rw [this, Int.ceil_neg, floor_div_eq _ hl]

/-- The right end of the span: the floor of xr and one, not beyond 3840 (R47). -/
theorem EdgeLine.xRight_eq (e : EdgeLine) (hr : 0 < e.dr) :
    e.xRight = min 3840 (⌊(e.xrN : ℚ) / e.dr⌋ + 1) := by
  simp only [EdgeLine.xRight]
  rw [floor_div_eq _ hr]

/-! ### The quotients of the record (R48) -/

section Quotients

variable (e : EdgeLine) (w : ℤ) (hl : 0 < e.dl) (hr : 0 < e.dr) (hw : e.wdN ≠ 0)

include hl hr hw

theorem EdgeLine.du_eq : ((65536 * w * (e.dl * e.dr) : ℤ) : ℚ) / e.wdN
    = 65536 * w / ((e.wdN : ℚ) / (e.dl * e.dr)) := by
  have h1 : (e.dl : ℚ) ≠ 0 := by exact_mod_cast hl.ne'
  have h2 : (e.dr : ℚ) ≠ 0 := by exact_mod_cast hr.ne'
  have h3 : (e.wdN : ℚ) ≠ 0 := by exact_mod_cast hw
  push_cast
  field_simp

theorem EdgeLine.u0_eq : ((65536 * w * (e.xLeft * e.dl - e.xlN) * e.dr : ℤ) : ℚ) / e.wdN
    = 65536 * w * ((e.xLeft : ℚ) - (e.xlN : ℚ) / e.dl) / ((e.wdN : ℚ) / (e.dl * e.dr)) := by
  have h1 : (e.dl : ℚ) ≠ 0 := by exact_mod_cast hl.ne'
  have h2 : (e.dr : ℚ) ≠ 0 := by exact_mod_cast hr.ne'
  have h3 : (e.wdN : ℚ) ≠ 0 := by exact_mod_cast hw
  push_cast
  field_simp

theorem EdgeLine.dv_eq : ((65536 * (e.vrN * e.dl - e.vlN * e.dr) : ℤ) : ℚ) / e.wdN
    = 65536 * ((e.vrN : ℚ) / e.dr - (e.vlN : ℚ) / e.dl) / ((e.wdN : ℚ) / (e.dl * e.dr)) := by
  have h1 : (e.dl : ℚ) ≠ 0 := by exact_mod_cast hl.ne'
  have h2 : (e.dr : ℚ) ≠ 0 := by exact_mod_cast hr.ne'
  have h3 : (e.wdN : ℚ) ≠ 0 := by exact_mod_cast hw
  push_cast
  field_simp

theorem EdgeLine.v0_eq :
    ((65536 * (e.vlN * e.wdN + (e.vrN * e.dl - e.vlN * e.dr) * (e.xLeft * e.dl - e.xlN)) : ℤ) : ℚ)
        / (e.wdN * e.dl)
      = 65536 * ((e.vlN : ℚ) / e.dl + ((e.vrN : ℚ) / e.dr - (e.vlN : ℚ) / e.dl)
          * ((e.xLeft : ℚ) - (e.xlN : ℚ) / e.dl) / ((e.wdN : ℚ) / (e.dl * e.dr))) := by
  have h1 : (e.dl : ℚ) ≠ 0 := by exact_mod_cast hl.ne'
  have h2 : (e.dr : ℚ) ≠ 0 := by exact_mod_cast hr.ne'
  have h3 : (e.wdN : ℚ) ≠ 0 := by exact_mod_cast hw
  push_cast
  field_simp

end Quotients

/-! ### Rounding (spec 00) -/

/-- A tie of the offset arithmetic, whose denominator is 1024, is rounded away from zero (R89). -/
theorem roundDiv_tie (n : ℤ) (h : 2 * |n - roundDiv n 1024 * 1024| = 1024) : |n| < |roundDiv n 1024 * 1024| := by
  have key : roundDiv n 1024 = n.sign * (((2 * n.natAbs + 1024) / 2048 : ℕ) : ℤ) := by
    unfold roundDiv
    simp [Int.sign]
  rw [key] at h ⊢
  rcases lt_trichotomy n 0 with g | g | g
  · rw [Int.sign_eq_neg_one_of_neg g] at h ⊢
    simp only [abs] at *
    omega
  · subst g
    simp at h
  · rw [Int.sign_eq_one_of_pos g] at h ⊢
    simp only [abs] at *
    omega

/-- The rounded quotient is within half of the exact one. -/
theorem roundDiv_near (n : ℤ) {d : ℤ} (hd : d ≠ 0) : 2 * |n - roundDiv n d * d| ≤ |d| := by
  have h := Nat.div_add_mod (2 * n.natAbs + d.natAbs) (2 * d.natAbs)
  have hlt := Nat.mod_lt (2 * n.natAbs + d.natAbs) (show 0 < 2 * d.natAbs by omega)
  have key : ∀ q : ℕ, q = (2 * n.natAbs + d.natAbs) / (2 * d.natAbs) →
      2 * |(n.natAbs : ℤ) - q * d.natAbs| ≤ d.natAbs := by
    rintro q rfl
    generalize (2 * n.natAbs + d.natAbs) / (2 * d.natAbs) = q at h
    generalize (2 * n.natAbs + d.natAbs) % (2 * d.natAbs) = r at h hlt
    have h' : 2 * ((q : ℤ) * d.natAbs) + r = 2 * n.natAbs + d.natAbs := by
      have : ((2 * d.natAbs * q + r : ℕ) : ℤ) = ((2 * n.natAbs + d.natAbs : ℕ) : ℤ) := by rw [h]
      push_cast at this
      push_cast
      linarith
    have hlt' : (r : ℤ) < 2 * d.natAbs := by exact_mod_cast hlt
    have hr : (0 : ℤ) ≤ r := by positivity
    have : |2 * ((n.natAbs : ℤ) - q * d.natAbs)| ≤ d.natAbs := abs_le.2 ⟨by linarith, by linarith⟩
    rwa [abs_mul, abs_of_pos (by norm_num : (0 : ℤ) < 2)] at this
  have h2 := key _ rfl
  unfold roundDiv
  generalize (2 * n.natAbs + d.natAbs) / (2 * d.natAbs) = q at h2
  have hn : n = n.sign * n.natAbs := (Int.sign_mul_natAbs n).symm
  have hdd : d = d.sign * d.natAbs := (Int.sign_mul_natAbs d).symm
  have hs : d.sign * d.sign = 1 := by
    rcases lt_or_gt_of_ne hd with h | h
    · simp [Int.sign_eq_neg_one_of_neg h]
    · simp [Int.sign_eq_one_of_pos h]
  have e : n - n.sign * d.sign * (q : ℤ) * d = n.sign * ((n.natAbs : ℤ) - q * d.natAbs) := by
    calc n - n.sign * d.sign * (q : ℤ) * d
        = n.sign * n.natAbs - n.sign * d.sign * (q : ℤ) * (d.sign * d.natAbs) := by rw [← hn, ← hdd]
      _ = n.sign * n.natAbs - n.sign * (d.sign * d.sign) * q * d.natAbs := by ring
      _ = n.sign * ((n.natAbs : ℤ) - q * d.natAbs) := by rw [hs]; ring
  rw [e, abs_mul]
  have hsn : |n.sign| ≤ 1 := by
    rcases lt_trichotomy n 0 with h | h | h
    · simp [Int.sign_eq_neg_one_of_neg h]
    · simp [h]
    · simp [Int.sign_eq_one_of_pos h]
  have hda : |d| = d.natAbs := Int.abs_eq_natAbs d
  have h0 : (0 : ℤ) ≤ |(n.natAbs : ℤ) - q * d.natAbs| := abs_nonneg _
  rw [hda]
  nlinarith [mul_le_mul_of_nonneg_right hsn h0]

/-! ### Validation finds the first failing line (R30) -/

/-- The DARK record passes. -/
@[simp] theorem darkRecord_failure : darkRecord.failure = none := rfl

theorem storeFind_mem {α : Type} {s : Store α} {k : Nat} {x : α} (h : storeFind s k = some x) : (k, x) ∈ s := by
  induction s with
  | nil => cases h
  | cons p s ih =>
    obtain ⟨j, y⟩ := p
    unfold storeFind at h
    split at h
    · cases h; simp [*]
    · exact List.mem_cons_of_mem _ (ih h)

theorem storeFind_of_mem {α : Type} {s : Store α} (hs : storeRising s) {k : Nat} {x : α} (h : (k, x) ∈ s) :
    storeFind s k = some x := by
  induction s with
  | nil => cases h
  | cons p s ih =>
    obtain ⟨j, y⟩ := p
    obtain ⟨h1, h2⟩ := List.pairwise_cons.1 hs
    unfold storeFind
    rcases List.mem_cons.1 h with e | e
    · cases e; simp
    · have := h1 _ e
      rw [if_neg (by simp only at this; omega)]
      exact ih h2 e

theorem firstFailure_none {s : Store LineRecord} : firstFailure s = none ↔ ∀ p ∈ s, p.2.failure = none := by
  induction s with
  | nil => simp [firstFailure]
  | cons p s ih =>
    obtain ⟨j, r⟩ := p
    unfold firstFailure
    cases h : r.failure <;> simp [h, ih]

theorem firstFailure_some {s : Store LineRecord} (hs : storeRising s) {j : Nat} {t : TableTest}
    (h : firstFailure s = some (j, t)) :
    (∃ r, (j, r) ∈ s ∧ r.failure = some t) ∧ ∀ p ∈ s, p.1 < j → p.2.failure = none := by
  induction s with
  | nil => cases h
  | cons p s ih =>
    obtain ⟨i, r⟩ := p
    obtain ⟨h1, h2⟩ := List.pairwise_cons.1 hs
    unfold firstFailure at h
    cases hr : r.failure with
    | some t' =>
      simp only [hr, Option.some.injEq, Prod.mk.injEq] at h
      obtain ⟨rfl, rfl⟩ := h
      refine ⟨⟨r, by simp, hr⟩, fun p hp hlt => ?_⟩
      rcases List.mem_cons.1 hp with rfl | hp
      · exact absurd hlt (lt_irrefl _)
      · exact absurd (h1 p hp) (by simp only; omega)
    | none =>
      simp only [hr] at h
      obtain ⟨⟨r', hm, hf⟩, hb⟩ := ih h2 h
      refine ⟨⟨r', by simp [hm], hf⟩, fun p hp hlt => ?_⟩
      rcases List.mem_cons.1 hp with rfl | hp
      · exact hr
      · exact hb p hp hlt

/-- A line of a bank in its canonical form is listed, or DARK. -/
theorem bankRecord_cases (b : Bank) (j : Nat) :
    (j, bankRecord b j) ∈ b.records ∨ bankRecord b j = darkRecord := by
  unfold bankRecord
  cases hf : storeFind b.records j with
  | none => simp
  | some r => exact .inl (by simpa using storeFind_mem hf)

theorem bankRecord_of_mem {b : Bank} (h : bankWf b) {j : Nat} {r : LineRecord} (hm : (j, r) ∈ b.records) :
    bankRecord b j = r := by
  simp [bankRecord, storeFind_of_mem h.1 hm]

/-- A bank passes validation where every line does (R30). -/
theorem Bank.validate_none {b : Bank} (h : bankWf b) :
    b.validate = none ↔ ∀ j, (bankRecord b j).failure = none := by
  unfold Bank.validate
  rw [firstFailure_none]
  constructor
  · intro hp j
    rcases bankRecord_cases b j with hm | e
    · exact hp _ hm
    · simp [e]
  · rintro hj ⟨j, r⟩ hm
    have := hj j
    rwa [bankRecord_of_mem h hm] at this

/-- A bank that fails does so on its first failing line, with that line's test (R30). -/
theorem Bank.validate_some {b : Bank} (h : bankWf b) {j : Nat} {t : TableTest} :
    b.validate = some (j, t) ↔ (bankRecord b j).failure = some t ∧ ∀ k, k < j → (bankRecord b k).failure = none := by
  constructor
  · intro hv
    obtain ⟨⟨r, hm, hf⟩, hb⟩ := firstFailure_some h.1 hv
    refine ⟨by rw [bankRecord_of_mem h hm]; exact hf, fun k hk => ?_⟩
    rcases bankRecord_cases b k with hm' | e
    · exact hb _ hm' hk
    · simp [e]
  · rintro ⟨hf, hb⟩
    cases hv : b.validate with
    | none => rw [(Bank.validate_none h).1 hv j] at hf; cases hf
    | some p =>
      obtain ⟨i, t'⟩ := p
      obtain ⟨⟨r, hm, hr⟩, hb'⟩ := firstFailure_some h.1 hv
      have hi : (bankRecord b i).failure = some t' := by rw [bankRecord_of_mem h hm]; exact hr
      rcases lt_trichotomy i j with hlt | rfl | hlt
      · rw [hb i hlt] at hi; cases hi
      · rw [hf] at hi; cases hi; rfl
      · rcases bankRecord_cases b j with hm' | e
        · rw [hb' _ hm' hlt] at hf; cases hf
        · simp [e] at hf

/-! ### The lines a generation leaves (R45 to R49) -/

/-- The records of the lines computed: in canonical form, each line at its number, up to the first line that
fails BAD_SHAPE. -/
theorem generatedLines_spec (c : CornerSet) (z : Size) (n j : Nat) :
    storeRising (generatedLines c z n j).1
      ∧ (∀ p ∈ (generatedLines c z n j).1, j ≤ p.1 ∧ p.1 < j + n ∧ p.2 ≠ darkRecord)
      ∧ (∀ k, j ≤ k → k < j + n → (∀ i, (generatedLines c z n j).2 = some i → k < i) →
          generatedLine c z k = some ((storeFind (generatedLines c z n j).1 k).getD darkRecord))
      ∧ (∀ i, (generatedLines c z n j).2 = some i → j ≤ i ∧ i < j + n ∧ generatedLine c z i = none
          ∧ ∀ p ∈ (generatedLines c z n j).1, p.1 < i) := by
  induction n generalizing j with
  | zero =>
    refine ⟨List.Pairwise.nil, by simp [generatedLines], fun k h1 h2 => by omega, by simp [generatedLines]⟩
  | succ n ih =>
    obtain ⟨h1, h2, h3, h4⟩ := ih (j + 1)
    cases hg : generatedLine c z j with
    | none =>
      simp only [generatedLines, hg]
      refine ⟨List.Pairwise.nil, by simp, fun k hk _ hi => ?_, fun i hi => ?_⟩
      · have := hi j rfl
        omega
      · cases hi
        exact ⟨le_rfl, by omega, hg, by simp⟩
    | some r =>
      have hne : ∀ k, k ≠ j → storeFind
          (if r = darkRecord then (generatedLines c z n (j + 1)).1 else (j, r) :: (generatedLines c z n (j + 1)).1) k
            = storeFind (generatedLines c z n (j + 1)).1 k := by
        intro k hk
        split
        · rfl
        · simp [storeFind, hk.symm]
      have hsame : (storeFind
          (if r = darkRecord then (generatedLines c z n (j + 1)).1 else (j, r) :: (generatedLines c z n (j + 1)).1)
            j).getD darkRecord = r := by
        split
        · rw [storeFind_above fun p hp => by have := h2 p hp; omega]
          simp [*]
        · simp [storeFind]
      simp only [generatedLines, hg]
      refine ⟨?_, ?_, ?_, ?_⟩
      · split
        · exact h1
        · exact List.pairwise_cons.2 ⟨fun p hp => by have := h2 p hp; simp only; omega, h1⟩
      · intro p hp
        split at hp
        · have := h2 p hp
          exact ⟨by omega, by omega, this.2.2⟩
        · rename_i hr
          rcases List.mem_cons.1 hp with rfl | hp
          · exact ⟨le_rfl, by simp only; omega, hr⟩
          · have := h2 p hp
            exact ⟨by omega, by omega, this.2.2⟩
      · intro k hk1 hk2 hi
        by_cases hk : k = j
        · subst hk
          rw [hsame]
          exact hg
        · rw [hne k hk]
          exact h3 k (by omega) (by omega) hi
      · intro i hi
        obtain ⟨a, b, d, e⟩ := h4 i hi
        refine ⟨by omega, by omega, d, fun p hp => ?_⟩
        split at hp
        · exact e p hp
        · rcases List.mem_cons.1 hp with rfl | hp
          · simp only; omega
          · exact e p hp

/-- The bank a generation leaves has the canonical form. -/
theorem generate_wf (c : CornerSet) (z y : Size) (x : BankSource) : bankWf ⟨y, x, (generate c z).1⟩ := by
  obtain ⟨h1, h2, _, _⟩ := generatedLines_spec c z Config.panelRows 0
  exact ⟨h1, fun p hp => by have := (h2 p hp).2.1; simpa using this, fun p hp => (h2 p hp).2.2⟩

/-- A generation succeeds only where every line it left passes validation (R49). -/
theorem generate_success {c : CornerSet} {z : Size} (h : (generate c z).2 = .success) (y : Size) (x : BankSource) :
    Bank.validate ⟨y, x, (generate c z).1⟩ = none := by
  unfold generate at h ⊢
  simp only at h ⊢
  split at h
  · cases h
  · split at h
    · cases h
    · exact (by assumption : firstFailure _ = none)

end Sys2Proof.Machine
end

