-- ==== Sys2Proof/Laws/LegFault.lean ====
section
/-! SUPPORT. What the lock of a delivery leaves alone at the axes, the placement and the focus state, and what the
beginning of a leg with the driver fault asserted leaves (R75, R79). -/

namespace Sys2Proof.Machine

/-! ### The event flags -/

theorem Sender.has_raise (x : Sender) (e : EventFlag) : (x.raise e).has e = true := by
  have : flagBit e < 32 := by cases e <;> (try rename_i a; cases a) <;> decide
  simp [Sender.has, x.raise_flags e, this]

theorem Sender.Grows.has {x y : Sender} (h : x.Grows y) {f : EventFlag} (hf : x.has f = true) : y.has f = true :=
  h.keeps (P := fun z => z.has f = true)
    (fun z e hz => by
      unfold Sender.has at *
      rw [z.raise_flags e, BitVec.getLsbD_or, hz, Bool.true_or]) hf

/-! ### A lock reaches one axis -/

theorem State.axis_standIdle_ne (s : State) {a b : Axis} (r : HaltReason) (m : MoveRec) (h : b ≠ a) :
    (s.standIdle a r m).axis b = s.axis b := by
  unfold State.standIdle State.reportStopped
  split <;> exact s.axis_setAxis_ne _ h

theorem State.axis_clearHomed_ne (s : State) {a b : Axis} (p : Phase) (h : b ≠ a) :
    (s.clearHomed a p).axis b = s.axis b := by
  have := s.axis_setAxis_ne { s.axis a with phase := p, pos := 0, ring := [] } h
  cases a <;> exact this

theorem State.axis_standUnhomed_ne (s : State) {a b : Axis} (r : HaltReason) (h : b ≠ a) :
    (s.standUnhomed a r).axis b = s.axis b :=
  ((s.clearHomed a .unhomed).axis_setAxis_ne _ h).trans (s.axis_clearHomed_ne _ h)

theorem State.axis_lockEffect_ne (s : State) {a b : Axis} (h : b ≠ a) : (s.lockEffect a).axis b = s.axis b := by
  unfold State.lockEffect State.haltMove State.haltHoming
  repeat' split
  all_goals first
    | rfl
    | exact s.axis_standIdle_ne _ _ h
    | exact s.axis_standUnhomed_ne _ h
    | exact s.axis_setAxis_ne _ h

theorem State.axis_setProtLock_ne (s : State) {a b : Axis} (on : Bool) (h : b ≠ a) :
    (s.setProtLock a on).axis b = s.axis b := by
  unfold State.setProtLock
  simp only
  split
  · exact (State.axis_lockEffect_ne _ h).trans (s.axis_setAxis_ne _ h)
  · exact s.axis_setAxis_ne _ h

/-- An axis that is not newly locked, or that neither moves nor homes, keeps everything but the lock. -/
theorem State.axis_setProtLock_same (s : State) (a : Axis) (on : Bool)
    (h : on = false ∨ (s.axis a).locked = true ∨ (s.axis a).phase = .fault) :
    (s.setProtLock a on).axis a = { s.axis a with protLock := on } := by
  unfold State.setProtLock
  simp only
  split
  · rename_i g
    simp only [Bool.and_eq_true, Bool.not_eq_true'] at g
    rcases h with h | h | h
    · simp [h] at g
    · simp [h] at g
    · unfold State.lockEffect
      simp [h]
  · simp

theorem State.axis_deliver_same (s : State) (a : Axis)
    (h : (s.prot.table.actions s.prot.c).lensLock = false ∨ (s.axis a).locked = true ∨ (s.axis a).phase = .fault) :
    s.deliver.axis a = { s.axis a with protLock := (s.prot.table.actions s.prot.c).lensLock } := by
  rw [State.deliver_eq]
  cases a
  · rw [State.axis_setProtLock_ne _ _ (by decide), State.axis_setProtLock_ne _ _ (by decide)]
    exact State.axis_setProtLock_same _ _ _ h
  · rw [State.axis_setProtLock_ne _ _ (by decide)]
    have e := s.delivering.axis_setProtLock_ne (a := .v) (b := .h) (s.prot.table.actions s.prot.c).lensLock (by decide)
    rw [State.axis_setProtLock_same _ _ _ (by rw [e]; exact h), e]
    rfl
  · have e := s.delivering.axis_setProtLock_ne (a := .v) (b := .f) (s.prot.table.actions s.prot.c).lensLock (by decide)
    have e' := ((s.delivering.setProtLock .v (s.prot.table.actions s.prot.c).lensLock).axis_setProtLock_ne (a := .h) (b := .f)
      (s.prot.table.actions s.prot.c).lensLock (by decide)).trans e
    rw [State.axis_setProtLock_same _ _ _ (by rw [e']; exact h), e']
    rfl

/-! ### An ended placement and a cleared focus state stay so -/

theorem Placement.moveEnded_of_none {p : Placement} (h : p.state = .none) (a : Axis) (short : Bool) :
    p.moveEnded a short = p := by
  unfold Placement.moveEnded
  rw [h]

theorem State.place_lockEffect (s : State) (a : Axis) (h : s.place.cancelled = s.place) :
    (s.lockEffect a).place = s.place := by
  have hn : s.place.state = .none := by rw [← h]; rfl
  have idle : ∀ (t : State) r m, t.place = s.place → (t.standIdle a r m).place = s.place := by
    intro t r m ht
    unfold State.standIdle State.reportStopped
    split
    · exact ht
    · change t.place.moveEnded a true = s.place
      rw [ht]
      exact Placement.moveEnded_of_none hn a true
    · exact ht
  have unhomed : ∀ r, (s.standUnhomed a r).place = s.place := by
    intro r
    cases a
    · exact h
    · exact h
    · rfl
  unfold State.lockEffect State.haltMove State.haltHoming
  repeat' split
  all_goals first
    | rfl
    | exact idle _ _ _ rfl
    | exact unhomed _

theorem State.place_setProtLock (s : State) (a : Axis) (on : Bool) (h : s.place.cancelled = s.place) :
    (s.setProtLock a on).place = s.place := by
  unfold State.setProtLock
  simp only
  split
  · exact State.place_lockEffect _ a h
  · rfl

theorem State.place_deliver (s : State) (h : s.place.cancelled = s.place) : s.deliver.place = s.place := by
  rw [State.deliver_eq]
  have e1 := s.delivering.place_setProtLock .v (s.prot.table.actions s.prot.c).lensLock h
  have e2 := State.place_setProtLock _ .h (s.prot.table.actions s.prot.c).lensLock (by rw [e1]; exact h)
  have e3 := State.place_setProtLock _ .f (s.prot.table.actions s.prot.c).lensLock (by rw [e2, e1]; exact h)
  rw [e3, e2, e1]
  rfl

/-- The focus state after an axis fault or a homing start of F. -/
def Focus.cleared (x : Focus) : Focus := { x with base := 0, applied := 0, record := none }

theorem State.focus_setProtLock (s : State) (a : Axis) (on : Bool) (h : s.focus.cleared = s.focus) :
    (s.setProtLock a on).focus = s.focus := by
  have hr : ({ s.focus with record := none } : Focus) = s.focus := by rw [← h]; rfl
  unfold State.setProtLock
  simp only
  split
  · have idle : ∀ (t : State) r m, t.focus = s.focus → (t.standIdle a r m).focus = s.focus := by
      intro t r m ht
      unfold State.standIdle State.reportStopped
      split
      · exact ht
      · exact ht
      · change { t.focus with record := none } = s.focus
        rw [ht]
        exact hr
    have unhomed : ∀ (t : State) r, t.focus = s.focus → (t.standUnhomed a r).focus = s.focus := by
      intro t r ht
      cases a
      · exact ht
      · exact ht
      · change t.focus.cleared = s.focus
        rw [ht]
        exact h
    unfold State.lockEffect State.haltMove State.haltHoming
    repeat' split
    all_goals first
      | rfl
      | exact idle _ _ _ rfl
      | exact unhomed _ _ rfl
  · rfl

theorem State.focus_deliver (s : State) (h : s.focus.cleared = s.focus) : s.deliver.focus = s.focus := by
  rw [State.deliver_eq]
  have e1 := s.delivering.focus_setProtLock .v (s.prot.table.actions s.prot.c).lensLock h
  have e2 := State.focus_setProtLock _ .h (s.prot.table.actions s.prot.c).lensLock (by rw [e1]; exact h)
  have e3 := State.focus_setProtLock _ .f (s.prot.table.actions s.prot.c).lensLock (by rw [e2, e1]; exact h)
  rw [e3, e2, e1]
  rfl

/-! ### The leg that faults -/

/-- What making a source pending does at the axes, the placement and the focus state: nothing, or a delivery. -/
theorem State.makePending_delivers (s : State) (x : Source) :
    (∃ r : State, s.makePending x = r ∧ r.lens = s.lens ∧ r.place = s.place ∧ r.focus = s.focus)
      ∨ ∃ r : State, s.makePending x = r.deliver ∧ r.lens = s.lens ∧ r.place = s.place ∧ r.focus = s.focus := by
  unfold State.makePending
  split
  · exact .inl ⟨_, rfl, rfl, rfl, rfl⟩
  · unfold State.accept
    split
    · exact .inr ⟨_, rfl, rfl, rfl, rfl⟩
    · exact .inl ⟨_, rfl, rfl, rfl, rfl⟩

/-- The axis in FAULT with its event, before LENS_FAULT is made pending. -/
def State.faulting (s : State) (a : Axis) : State :=
  let t := (s.clearHomed a .fault).setLastEnd a (.fault .driver)
  (if (s.axis a).phase.isHoming then t.raise (.homeFailed a) else t).raise (.axisFault a)

theorem State.enterFault_eq (s : State) (a : Axis) (h : (s.axis a).phase ≠ .fault) :
    s.enterFault a .driver = (s.faulting a).makePending .lensFault := by
  unfold State.enterFault State.faulting
  split
  · rename_i e; exact absurd e h
  all_goals (rename_i e; simp [e, Phase.isHoming])

theorem State.faulting_near (s : State) (a : Axis) : s.Near (s.faulting a) := by
  unfold State.faulting
  simp only
  refine State.Near.trans ?_ (State.near_raise _ _)
  split
  · exact ((s.near_clearHomed a _).trans (State.near_setLastEnd _ _ _)).trans (State.near_raise _ _)
  · exact (s.near_clearHomed a _).trans (State.near_setLastEnd _ _ _)

theorem State.faulting_axis (s : State) (a : Axis) : (s.faulting a).axis a
    = { s.axis a with phase := .fault, pos := 0, ring := [], lastEnd := .fault .driver } := by
  unfold State.faulting
  simp only
  split <;> cases a <;> rfl

theorem State.faulting_axis_ne (s : State) {a b : Axis} (h : b ≠ a) : (s.faulting a).axis b = s.axis b := by
  have e : ((s.clearHomed a .fault).setLastEnd a (.fault .driver)).axis b = s.axis b :=
    ((s.clearHomed a .fault).axis_setAxis_ne _ h).trans (s.axis_clearHomed_ne _ h)
  unfold State.faulting
  simp only
  split <;> exact e

theorem State.faulting_place (s : State) (a : Axis) (h : a ≠ .f) : (s.faulting a).place = s.place.cancelled := by
  unfold State.faulting
  simp only
  split <;> cases a <;> first | rfl | exact absurd rfl h

theorem State.faulting_focus (s : State) : (s.faulting .f).focus = s.focus.cleared := by
  unfold State.faulting
  simp only
  split <;> rfl

/-- A driver fault on an axis not already in FAULT (R79), said once for the beginnings of legs. -/
theorem State.enterFault_faultedAtLeg (s : State) (a : Axis) (h : (s.axis a).phase ≠ .fault) :
    s.FaultedAtLeg (s.enterFault a .driver) a
      ∧ ((s.axis a).phase.isHoming = true → (s.enterFault a .driver).sender.has (.homeFailed a) = true) := by
  rw [s.enterFault_eq a h]
  have near := s.faulting_near a
  have rip := near.ripple.trans ((s.faulting a).ripple_makePending .lensFault)
  have grows := ((s.faulting a).ripple_makePending .lensFault).sender
  have del := (s.faulting a).makePending_delivers .lensFault
  have lens : ∀ {r : State}, r.lens = (s.faulting a).lens → ∀ b, r.axis b = (s.faulting a).axis b :=
    fun e b => by unfold State.axis; rw [e]
  refine ⟨⟨?_, ?_, State.makePending_get _ _, ?_, ?_, ?_, ?_, rip.profiles, rip.startup, rip.link, rip.mem,
    rip.intake, rip.table, rip.gen, rip.sensors, rip.pins, rip.hold, rip.pending⟩, ?_⟩
  · rcases del with ⟨r, e, l, -, -⟩ | ⟨r, e, l, -, -⟩ <;> rw [e]
    · rw [lens l a, s.faulting_axis a]
    · have k := r.axis_deliver_same a (.inr (.inr (by rw [lens l a, s.faulting_axis a])))
      rw [k, lens l a, s.faulting_axis a]
  · exact grows.has (by unfold State.faulting; exact Sender.has_raise _ _)
  · intro ha
    rcases del with ⟨r, e, -, p, -⟩ | ⟨r, e, -, p, -⟩ <;> rw [e]
    · rw [p, s.faulting_place a ha]
    · rw [r.place_deliver (by rw [p, s.faulting_place a ha]; rfl), p, s.faulting_place a ha]
  · intro ha
    subst ha
    rcases del with ⟨r, e, -, -, p⟩ | ⟨r, e, -, -, p⟩ <;> rw [e]
    · rw [p, s.faulting_focus]; rfl
    · rw [r.focus_deliver (by rw [p, s.faulting_focus]; rfl), p, s.faulting_focus]; rfl
  · intro b hb hl
    rcases del with ⟨r, e, l, -, -⟩ | ⟨r, e, l, -, -⟩ <;> rw [e] at hl ⊢
    · rw [lens l b, s.faulting_axis_ne hb]
    · rw [State.deliver_protLock] at hl ⊢
      have eb := (lens l b).trans (s.faulting_axis_ne hb)
      rw [r.axis_deliver_same b (hl.imp id fun h => .inl (by rw [eb]; exact h)), eb]
  · intro hp
    have e : (s.faulting a).makePending .lensFault = s.faulting a := by
      unfold State.makePending
      rw [if_pos (by rw [near.prot]; exact hp)]
    rw [e]
    exact ⟨near.prot, near.light, near.fans, near.picture, fun b hb => s.faulting_axis_ne hb⟩
  · intro hh
    refine grows.has ?_
    unfold State.faulting
    simp only [hh, if_true]
    exact (Sender.grows_raise _ _).has (Sender.has_raise _ _)

/-- What an axis did before the fault, its place, its last end and its direction, does not show after it. -/
theorem State.FaultedAtLeg.of_setAxis {s t : State} {a : Axis} {u : AxisUnit}
    (h : (s.setAxis a u).FaultedAtLeg t a) (hu : u = { s.axis a with
      phase := u.phase, pos := u.pos, ring := u.ring, lastEnd := u.lastEnd, dirOut := u.dirOut }) :
    s.FaultedAtLeg t a where
  axis := by
    have := h.axis
    rw [State.axis_setAxis_same, hu] at this
    exact this
  event := h.event
  raised := h.raised
  placement := h.placement
  focus := h.focus
  others b hb hl := by
    have := h.others b hb
    rw [s.axis_setAxis_ne u hb] at this
    exact this hl
  again hp := by
    obtain ⟨h1, h2, h3, h4, h5⟩ := h.again hp
    refine ⟨h1, h2, h3, h4, fun b hb => ?_⟩
    have := h5 b hb
    rwa [s.axis_setAxis_ne u hb] at this
  profiles := h.profiles
  startup := h.startup
  link := h.link
  mem := h.mem
  intake := h.intake
  table := h.table
  gen := h.gen
  sensors := h.sensors
  pins := h.pins
  hold := h.hold
  pending := h.pending

/-- A leg that begins with the driver fault input asserted (R79). -/
theorem State.beginLeg_faulted (s : State) (a : Axis) (m : MoveRec) (n : Nat)
    (h : (s.pins.get a).driverFault = true) : s.FaultedAtLeg (s.beginLeg a m n) a := by
  unfold State.beginLeg State.checkDriver
  simp only
  rw [if_pos (by exact h)]
  refine (State.enterFault_faultedAtLeg _ a ?_).1.of_setAxis rfl
  rw [State.axis_setAxis_same]
  simp

/-- A move to another position has a leg (R64). -/
theorem legsOf_eq_cons {p t : Nat} (backlash top : Nat) (way : Dir) (h : t ≠ p) :
    ∃ leg legs, legsOf p t backlash top way = leg :: legs := by
  unfold legsOf
  split
  · split
    · exact ⟨_, _, rfl⟩
    · simp only
      split <;> exact ⟨_, _, rfl⟩
  · rw [if_pos (by omega)]
    split
    · exact ⟨_, _, rfl⟩
    · simp only
      split <;> exact ⟨_, _, rfl⟩

/-- The check at the first leg of a homing sequence (R79, R182, R183): FAULT with HOME_FAILED where the axis is
HOMING and its driver fault asserted, and otherwise nothing. -/
theorem State.firstHomingLeg_spec (s : State) (a : Axis) :
    if (s.axis a).phase.isHoming = true ∧ (s.pins.get a).driverFault = true then
      s.FaultedAtLeg (s.firstHomingLeg a) a ∧ (s.firstHomingLeg a).sender.has (.homeFailed a) = true
    else s.firstHomingLeg a = s := by
  unfold State.firstHomingLeg State.checkDriver
  split
  · rename_i h
    rw [if_pos h.1, if_pos h.2]
    have hn : (s.axis a).phase ≠ .fault := by
      intro e
      rw [e] at h
      cases h.1
    exact ⟨(s.enterFault_faultedAtLeg a hn).1, (s.enterFault_faultedAtLeg a hn).2 h.1⟩
  · rename_i h
    split
    · rename_i g
      rw [if_neg fun k => h ⟨g, k⟩]
    · rfl

end Sys2Proof.Machine
end

