-- ==== Sys2Proof/Laws/Operands.lean ====
section
/-! SUPPORT. What each operand form admits: the range its rule gives a field, and the words that name a unit. -/

namespace Sys2Proof.Machine

/-! ### Single fields -/

theorem upTo_eq {n m : Nat} {w : Word} : upTo n w = some m ↔ m = w.toNat ∧ w.toNat ≤ n := by
  unfold upTo
  split
  · simp [*, eq_comm]
  · simp [*]

theorem within_eq {lo hi m : Nat} {w : Word} : within lo hi w = some m ↔ m = w.toNat ∧ lo ≤ w.toNat ∧ w.toNat ≤ hi := by
  unfold within
  split
  · simp [*, eq_comm]
  · simp only [reduceCtorEq, false_iff]; tauto

theorem signedWithin_eq {lo hi m : Int} {w : Word} :
    signedWithin lo hi w = some m ↔ m = w.toInt ∧ lo ≤ w.toInt ∧ w.toInt ≤ hi := by
  unfold signedWithin
  split
  · simp [*, eq_comm]
  · simp only [reduceCtorEq, false_iff]; tauto

@[simp] theorem axisOf_axisWord (a : Axis) : axisOf (axisWord a) = some a := by cases a <;> rfl

@[simp] theorem sensorOf_sensorWord (x : Sensor) : sensorOf (sensorWord x) = some x := by cases x <;> rfl

@[simp] theorem fanOf_fanWord (x : Fan) : fanOf (fanWord x) = some x := by cases x <;> rfl

/-! ### Lists of fields -/

theorem allSome_eq {α : Type} {l : List (Option α)} {r : List α} : allSome l = some r ↔ l = r.map some := by
  induction l generalizing r with
  | nil => cases r <;> simp [allSome]
  | cons x l ih =>
    cases x with
    | none => cases r <;> simp [allSome]
    | some x =>
      simp only [allSome, Option.map_eq_some_iff]
      constructor
      · rintro ⟨r, h, rfl⟩
        simp [ih.1 h]
      · cases r with
        | nil => simp
        | cons y r =>
          simp only [List.map_cons, List.cons.injEq, Option.some.injEq]
          rintro ⟨rfl, h⟩
          exact ⟨r, ih.2 h, rfl, rfl⟩

theorem allSome_mem {α : Type} {l : List (Option α)} {r : List α} (h : allSome l = some r) {x : α} (hx : x ∈ r) :
    some x ∈ l := by
  rw [allSome_eq.1 h]
  exact List.mem_map.2 ⟨x, hx, rfl⟩

/-! ### Payloads -/

/-- LEVELS: every level but TRIP's is at most 3, and TRIP's is 4 (R149). -/
theorem levelsFields_range {p : List Word} {x : PerSource Nat} (h : levelsFields p = some x) :
    x.trip = 4 ∧ ∀ y, y ≠ Source.trip → x.get y ≤ 3 := by
  unfold levelsFields at h
  cases hm : allSome (p.map (upTo 3)) with
  | none => simp [hm] at h
  | some l =>
    have hb : ∀ v ∈ l, v ≤ 3 := by
      intro v hv
      obtain ⟨w, _, hw⟩ := List.mem_map.1 (allSome_mem hm hv)
      have := upTo_eq.1 hw
      omega
    simp only [hm, Option.bind_eq_bind, Option.bind_some] at h
    split at h
    · cases h
      refine ⟨rfl, fun y hy => ?_⟩
      cases y <;> first | exact absurd rfl hy | (apply hb; simp [PerSource.get])
    · cases h

/-- ACTIONS: a table in range and monotone (R152). -/
theorem actionsFields_sound {p : List Word} {t : ActionTable} (h : actionsFields p = some t) : t.Sound := by
  have hin : ∀ {a b c d e : Word} {x : Actions}, actionsOf a b c d e = some x → x.inRange := by
    intro a b c d e x hx
    simp only [actionsOf, Option.bind_eq_bind, Option.bind_eq_some_iff, Option.pure_def, Option.some.injEq] at hx
    obtain ⟨l, hl, f, hf, _, _, _, _, _, _, rfl⟩ := hx
    have h1 := upTo_eq.1 hl
    have h2 := upTo_eq.1 hf
    exact ⟨h1.1 ▸ h1.2, h2.1 ▸ h2.2⟩
  unfold actionsFields at h
  split at h
  · simp only [Option.bind_eq_bind, Option.bind_eq_some_iff] at h
    obtain ⟨x, hx, y, hy, z, hz, h⟩ := h
    split at h
    · rename_i hb
      cases h
      exact ⟨hin hx, hin hy, hin hz, hb.1, hb.2⟩
    · cases h
  · cases h

/-- LENS_CAL: the record is one of R59. -/
theorem lensCalFields_sound {p : List Word} {a : Axis} {c : Cal} (h : lensCalFields p = some (a, c)) : c.Sound a := by
  unfold lensCalFields at h
  split at h
  · simp only [Option.bind_eq_bind, Option.bind_eq_some_iff] at h
    obtain ⟨_, _, top, htop, bl, hbl, _, _, pps, hpps, ref, href, _, _, _, _, _, _, h⟩ := h
    split at h
    · cases h
    · rename_i hne
      simp only [Option.some.injEq, Prod.mk.injEq] at h
      obtain ⟨rfl, rfl⟩ := h
      have h1 := within_eq.1 htop
      have h2 := upTo_eq.1 hbl
      have h3 := upTo_eq.1 href
      refine ⟨?_, ?_, ?_, ?_⟩
      · show 100 ≤ top ∧ top ≤ 65000; omega
      · show bl ≤ 255; omega
      · intro ha h0; exact hne ⟨h0, ha⟩
      · show ref ≤ top; omega
  · cases h

/-- PROFILE: a number of 0..3 and values in their ranges (R61). -/
theorem profileFields_sound {p : List Word} {n : Nat} {x : Profile} (h : profileFields p = some (n, x)) :
    n ≤ 3 ∧ x.Sound := by
  unfold profileFields at h
  split at h
  · simp only [Option.bind_eq_bind, Option.bind_eq_some_iff, Option.pure_def, Option.some.injEq, Prod.mk.injEq] at h
    obtain ⟨n, hn, start, hs, top, ht, ramp, hr, rfl, rfl⟩ := h
    have h0 := upTo_eq.1 hn
    have h1 := within_eq.1 hs
    have h2 := within_eq.1 ht
    have h3 := upTo_eq.1 hr
    refine ⟨by omega, ?_, ?_, ?_⟩
    · show 100 ≤ start; omega
    · show start ≤ top ∧ top ≤ 4000; omega
    · show ramp ≤ 2000; omega
  · cases h

/-- Breakpoints keep the range of their values and of their temperatures. -/
theorem breakpointsOf_range {value : Word → Option Int} {lo hi : Int}
    (hv : ∀ w x, value w = some x → lo ≤ x ∧ x ≤ hi) (p : List Word) {t : List Breakpoint} (h : breakpointsOf value p = some t) :
    ∀ b ∈ t, (-160 ≤ b.t ∧ b.t ≤ 600) ∧ lo ≤ b.value ∧ b.value ≤ hi := by
  fun_induction breakpointsOf value p generalizing t with
  | case1 => cases h; simp
  | case2 => cases h
  | case3 w x rest ih =>
    simp only [Option.bind_eq_bind, Option.bind_eq_some_iff, Option.pure_def, Option.some.injEq] at h
    obtain ⟨a, ha, b, hb, more, hm, rfl⟩ := h
    have h1 := signedWithin_eq.1 ha
    intro c hc
    rcases List.mem_cons.1 hc with rfl | hc
    · refine ⟨?_, hv _ _ hb⟩
      show -160 ≤ a ∧ a ≤ 600; omega
    · exact ih hm c hc

/-- FAN_CURVE: a curve set of R130 (R143). -/
theorem fanCurveFields_sound {p : List Word} {x : Fan} {o : Orientation} {t : List Breakpoint}
    (h : fanCurveFields p = some (x, o, t)) : CurveSound t := by
  unfold fanCurveFields at h
  split at h
  · simp only [Option.bind_eq_bind, Option.bind_eq_some_iff] at h
    obtain ⟨_, _, _, _, table, ht, h⟩ := h
    split at h
    · rename_i hc
      cases h
      refine ⟨hc.1, hc.2.1, hc.2.2, fun b hb => ?_⟩
      exact (breakpointsOf_range (lo := 0) (hi := 1000) (by
        intro w x hx; have := signedWithin_eq.1 hx; omega) _ ht b hb).2
    · cases h
  · cases h

/-- FAN_LIMITS: the gain, and a quiet cap of at most 1000 (R144). -/
theorem fanLimitsFields_range {p : List Word} {f : FanLimitsFields} (h : fanLimitsFields p = some f) :
    f.gain ≤ 1000 ∧ f.quietCap ≤ 1000 := by
  unfold fanLimitsFields at h
  split at h
  · simp only [Option.bind_eq_bind, Option.bind_eq_some_iff, Option.pure_def, Option.some.injEq] at h
    obtain ⟨_, _, _, _, _, _, g, hg, c, hc, _, _, rfl⟩ := h
    have h1 := upTo_eq.1 hg
    have h2 := upTo_eq.1 hc
    exact ⟨by show g ≤ 1000; omega, by show c ≤ 1000; omega⟩
  · cases h

/-- SENSOR_SET: an index of 0..15 and a trip temperature of 0..600 (R111). -/
theorem sensorSetFields_range {p : List Word} {x : Sensor} {window index trip : Nat}
    (h : sensorSetFields p = some (x, window, index, trip)) : index ≤ 15 ∧ trip ≤ 600 := by
  unfold sensorSetFields at h
  split at h
  · simp only [Option.bind_eq_bind, Option.bind_eq_some_iff, Option.pure_def, Option.some.injEq, Prod.mk.injEq] at h
    obtain ⟨_, _, i, hi, t, ht, _, _, rfl, rfl⟩ := h
    have h1 := upTo_eq.1 hi
    have h2 := upTo_eq.1 ht
    omega
  · cases h

/-- THRESHOLDS: sixteen rising temperatures (R110). -/
theorem thresholdsFields_sound {p : List Word} {ts : List Int} (h : thresholdsFields p = some ts) :
    ts.length = 16 ∧ rising ts = true := by
  unfold thresholdsFields at h
  simp only [Option.bind_eq_bind, Option.bind_eq_some_iff] at h
  obtain ⟨l, _, h⟩ := h
  split at h
  · cases h; assumption
  · cases h

/-- TABLE_OPEN: a size within the fixed formats (R26). -/
theorem tableOpenFields_eq {p : List Word} {z : Size} (h : tableOpenFields p = some z) :
    ∃ w h : Word, p = [w, h] ∧ z = ⟨w.toNat, h.toNat⟩ ∧ z.inFormats = true := by
  unfold tableOpenFields at h
  split at h
  · rename_i a b
    simp only [Option.bind_eq_bind, Option.bind_eq_some_iff, Option.pure_def, Option.some.injEq] at h
    obtain ⟨w, hw, v, hv, rfl⟩ := h
    have h1 := within_eq.1 hw
    have h2 := within_eq.1 hv
    refine ⟨a, b, rfl, by rw [h1.1, h2.1], ?_⟩
    simp [Size.inFormats]
    omega
  · cases h

/-- A record of a run is eleven words of it, fields as delivered (R25, spec 10.8). -/
theorem recordsOf_flatten (recs : List (List Word)) (h : ∀ r ∈ recs, r.length = 11) :
    ∃ rs, recordsOf recs.flatten = some rs ∧ rs.length = recs.length
      ∧ ∀ (i : Nat) (kind xl xr u1 u0 a1 a0 v1 v0 b1 b0 : Word), recs[i]? = some [kind, xl, xr, u1, u0, a1, a0, v1, v0, b1, b0] →
        rs[i]? = some (LineRecord.mk kind.toNat xl.toNat xr.toNat (longOf u1 u0) (longOf a1 a0) (longOf v1 v0)
          (longOf b1 b0)) := by
  induction recs with
  | nil => exact ⟨[], rfl, rfl, by simp⟩
  | cons r recs ih =>
    obtain ⟨rs, h1, h2, h3⟩ := ih fun r hr => h r (by simp [hr])
    obtain ⟨kind, xl, xr, u1, u0, a1, a0, v1, v0, b1, b0, rfl⟩ :
        ∃ kind xl xr u1 u0 a1 a0 v1 v0 b1 b0, r = [kind, xl, xr, u1, u0, a1, a0, v1, v0, b1, b0] := by
      have hr := h r (by simp)
      rcases r with _ | ⟨a, _ | ⟨b, _ | ⟨c, _ | ⟨d, _ | ⟨e, _ | ⟨f, _ | ⟨g, _ | ⟨h, _ | ⟨i, _ | ⟨j, _ | ⟨k, _ | ⟨l, rest⟩⟩⟩⟩⟩⟩⟩⟩⟩⟩⟩⟩
        <;> simp only [List.length_cons, List.length_nil] at hr <;> first | omega | exact ⟨_, _, _, _, _, _, _, _, _, _, _, rfl⟩
    refine ⟨_ :: rs, by simp [recordsOf, h1]; rfl, by simp [h2], ?_⟩
    intro i kind' xl' xr' u1' u0' a1' a0' v1' v0' b1' b0' hi
    cases i with
    | zero => simp at hi ⊢; obtain ⟨rfl, rfl, rfl, rfl, rfl, rfl, rfl, rfl, rfl, rfl, rfl⟩ := hi; simp
    | succ i => simpa using h3 i _ _ _ _ _ _ _ _ _ _ _ (by simpa using hi)

end Sys2Proof.Machine
end

