-- ==== Sys2Proof/WellFormed.lean ====
section
/-! DEFINITION. What a command must be to be one the outside can send: a message slot has its 65 words
(R160). The other operands have no ill-formed value. -/

namespace Sys2Proof

/-- The command has the form the link gives it (R160: message slots "of 65 words each"). -/
def Instr.wellFormed : Instr → Bool
  | .blankingSlot words => words.length == 65
  | .powerOnReset | .supplyDipReset | .selfCheckDone _ | .inputFrameStart _ _ _ | .activeLine _
  | .linkLossTimeout | .outputLine | .outputFrameEnd | .sendOpportunity _ | .fanUpdate | .tachPulse _
  | .windowEnd _ _ | .axisStep _ | .limitSwitchClose _ | .limitSwitchOpen _ | .homingBoundReached _
  | .moveTimeout _ | .driverFault _ _ | .generationEnd
  | .stop | .lock | .unlock | .clear | .lower | .eventAck | .softReset
  | .move | .hold | .resume | .returnMove | .home | .place | .placeCancel | .install
  | .pictureMode | .tableOpen | .tableRun | .tableCommit | .corners
  | .lensCal | .profile | .focusTable | .focusUpkeep
  | .sensorSet | .thresholds | .brightness | .fanCurve | .fanLimits | .quiet
  | .levels | .actions | .eventMask
  | .queryAxis | .queryPlacement | .querySensors | .queryFans | .queryLight | .queryProtection
  | .queryEvents | .queryCounters | .queryTable | .queryCause | .queryPicture
  | .unknownKind | .heldInReset _ => true

end Sys2Proof
end

