-- ==== Sys2Proof/Laws/PerInstr.lean ====
section
/-! SUPPORT. What is said of every command as syntax, one lemma a constructor: the only ill-formed command is
a message slot that has not its 65 words (R160). -/

namespace Sys2Proof.Laws.WordForm

/-- A command that is not well-formed is a message slot of a wrong length. -/
def Statement (i : Instr) : Prop :=
  i.wellFormed = false → ∃ words, i = .blankingSlot words ∧ words.length ≠ 65

theorem powerOnReset : Statement .powerOnReset := fun h => nomatch h

theorem supplyDipReset : Statement .supplyDipReset := fun h => nomatch h

theorem selfCheckDone (passed : Bool) : Statement (.selfCheckDone passed) := fun h => nomatch h

theorem inputFrameStart (parity : Parity) (w h : Word) : Statement (.inputFrameStart parity w h) := fun h => nomatch h

theorem activeLine (samples : List Sample) : Statement (.activeLine samples) := fun h => nomatch h

theorem blankingSlot (words : List Word) : Statement (.blankingSlot words) := fun h =>
  ⟨words, rfl, by simpa [Instr.wellFormed] using h⟩

theorem linkLossTimeout : Statement .linkLossTimeout := fun h => nomatch h

theorem outputLine : Statement .outputLine := fun h => nomatch h

theorem outputFrameEnd : Statement .outputFrameEnd := fun h => nomatch h

theorem sendOpportunity (ready : Bool) : Statement (.sendOpportunity ready) := fun h => nomatch h

theorem fanUpdate : Statement .fanUpdate := fun h => nomatch h

theorem tachPulse (fan : Fan) : Statement (.tachPulse fan) := fun h => nomatch h

theorem windowEnd (sensor : Sensor) (raw : Word) : Statement (.windowEnd sensor raw) := fun h => nomatch h

theorem axisStep (axis : Axis) : Statement (.axisStep axis) := fun h => nomatch h

theorem limitSwitchClose (axis : Axis) : Statement (.limitSwitchClose axis) := fun h => nomatch h

theorem limitSwitchOpen (axis : Axis) : Statement (.limitSwitchOpen axis) := fun h => nomatch h

theorem homingBoundReached (axis : Axis) : Statement (.homingBoundReached axis) := fun h => nomatch h

theorem moveTimeout (axis : Axis) : Statement (.moveTimeout axis) := fun h => nomatch h

theorem driverFault (axis : Axis) (asserted : Bool) : Statement (.driverFault axis asserted) := fun h => nomatch h

theorem generationEnd : Statement .generationEnd := fun h => nomatch h

theorem stop : Statement .stop := fun h => nomatch h

theorem lock : Statement .lock := fun h => nomatch h

theorem unlock : Statement .unlock := fun h => nomatch h

theorem clear : Statement .clear := fun h => nomatch h

theorem lower : Statement .lower := fun h => nomatch h

theorem eventAck : Statement .eventAck := fun h => nomatch h

theorem softReset : Statement .softReset := fun h => nomatch h

theorem move : Statement .move := fun h => nomatch h

theorem hold : Statement .hold := fun h => nomatch h

theorem resume : Statement .resume := fun h => nomatch h

theorem returnMove : Statement .returnMove := fun h => nomatch h

theorem home : Statement .home := fun h => nomatch h

theorem place : Statement .place := fun h => nomatch h

theorem placeCancel : Statement .placeCancel := fun h => nomatch h

theorem install : Statement .install := fun h => nomatch h

theorem pictureMode : Statement .pictureMode := fun h => nomatch h

theorem tableOpen : Statement .tableOpen := fun h => nomatch h

theorem tableRun : Statement .tableRun := fun h => nomatch h

theorem tableCommit : Statement .tableCommit := fun h => nomatch h

theorem corners : Statement .corners := fun h => nomatch h

theorem lensCal : Statement .lensCal := fun h => nomatch h

theorem profile : Statement .profile := fun h => nomatch h

theorem focusTable : Statement .focusTable := fun h => nomatch h

theorem focusUpkeep : Statement .focusUpkeep := fun h => nomatch h

theorem sensorSet : Statement .sensorSet := fun h => nomatch h

theorem thresholds : Statement .thresholds := fun h => nomatch h

theorem brightness : Statement .brightness := fun h => nomatch h

theorem fanCurve : Statement .fanCurve := fun h => nomatch h

theorem fanLimits : Statement .fanLimits := fun h => nomatch h

theorem quiet : Statement .quiet := fun h => nomatch h

theorem levels : Statement .levels := fun h => nomatch h

theorem actions : Statement .actions := fun h => nomatch h

theorem eventMask : Statement .eventMask := fun h => nomatch h

theorem queryAxis : Statement .queryAxis := fun h => nomatch h

theorem queryPlacement : Statement .queryPlacement := fun h => nomatch h

theorem querySensors : Statement .querySensors := fun h => nomatch h

theorem queryFans : Statement .queryFans := fun h => nomatch h

theorem queryLight : Statement .queryLight := fun h => nomatch h

theorem queryProtection : Statement .queryProtection := fun h => nomatch h

theorem queryEvents : Statement .queryEvents := fun h => nomatch h

theorem queryCounters : Statement .queryCounters := fun h => nomatch h

theorem queryTable : Statement .queryTable := fun h => nomatch h

theorem queryCause : Statement .queryCause := fun h => nomatch h

theorem queryPicture : Statement .queryPicture := fun h => nomatch h

theorem unknownKind : Statement .unknownKind := fun h => nomatch h

theorem heldInReset (input : ResetInput) : Statement (.heldInReset input) := fun h => nomatch h

end Sys2Proof.Laws.WordForm
end

