-- ==== Sys2Proof/Tests/Slice0.lean ====
section
/-! SUPPORT. Tests: the well-formedness checks refuse an ill-formed command; the worked cases of the spec, each a
step or an operation on a small state, with the values the spec prints; and for every obligation a state and
operands that meet its hypotheses. -/

namespace Sys2Proof.Tests

open Sys2Proof Sys2Proof.Machine

/-! ### Helpers -/

/-- The state after a command. -/
def run (c : Instr) (s : State) : State :=
  match exec c s with
  | .next t => t
  | .fault x => nomatch x
  | .refused _ => s

/-- The part READY after power-on, with no mute cause. -/
def ready : State :=
  { State.reset with
    startup := ⟨.ready, .passed, .powerOn⟩
    picture := { powerOnPicture with mutes := ⟨false, false, false, false, false, false⟩ } }

/-- A message of a kind with a payload, REPLY_ON_DONE clear. -/
def msg (kind : Byte) (p : List Word) : Envelope := ⟨kind, 0x21#8, 0#8, p⟩

/-- The executor slot holds that message, and the other 31 envelopes are free. -/
def given (s : State) (kind : Byte) (p : List Word) : State :=
  { s with intake := { resetIntake with free := 31, slot := some (msg kind p) } }

theorem given_executes {s : State} (kind : Byte) (p : List Word) (h : s.hold.held = false := by rfl) :
    (given s kind p).Executes (msg kind p) kind p := ⟨h, rfl, rfl, rfl⟩

/-- The axis homed and IDLE at a position, with a ring. -/
def idleAt (s : State) (a : Axis) (pos : Nat) (ring : List Nat := []) : State :=
  s.setAxis a { s.axis a with phase := .idle, pos := pos, ring := ring, lastEnd := .homed }

/-! ### Well-formedness (R160) -/

theorem test_slot_of_65_words_is_well_formed :
    (Instr.blankingSlot (List.replicate 65 0#16)).wellFormed = true := by decide

theorem test_slot_of_64_words_is_refused : (Instr.blankingSlot (List.replicate 64 0#16)).wellFormed = false := by
  decide

theorem test_slot_of_66_words_is_refused : (Instr.blankingSlot (List.replicate 66 0#16)).wellFormed = false := by
  decide

/-! ### Decoding: the table gives no bits -/

theorem test_no_word_spells_a_command : decodeTableWord 16 0x1021 = none ∧ ready.withFetchWord 16 0x1021 = ready :=
  ⟨rfl, rfl⟩

/-! ### Arithmetic (spec 00, Rounding; R9 to R11, R20, R21) -/

theorem test_round_ties_away_from_zero :
    roundDiv 5 2 = 3 ∧ roundDiv (-5) 2 = -3 ∧ roundDiv 301 2 = 151 ∧ roundDiv 601 4 = 150 := by decide

/-- Spec 01, "one pixel through the chain". -/
def chainFrame : OutFrame :=
  { read := some (.s0, ⟨1920, 1080⟩), mode := .table, orientation := .ceiling, bank := .a, dx := 2, dy := -1
    parity := .even, black := false, nextRow := 0, sum := 0 }

def chainBank : Bank := ⟨⟨1920, 1080⟩, .loaded, [(500, ⟨1, 100, 1380, 0, 98304, 688128, 0⟩)]⟩

/-- Rows 10 and 11 of slot S0, with the worked samples in columns 4 and 5. -/
def chainMemory : FrameMemory :=
  let row := fun (a b : BitVec 10) => List.replicate 4 blackSample ++ [⟨a, 300#10, 100#10⟩, ⟨b, 300#10, 100#10⟩]
  ⟨[(10, row 400#10 600#10), (11, row 200#10 1000#10)], [], 0⟩

theorem test_pixel_through_the_chain :
    chainFrame.pixel chainBank chainMemory 3734 1660 = ⟨550#10, 300#10, 100#10⟩ := by decide

theorem test_column_below_the_span_is_black : chainFrame.pixel chainBank chainMemory 3738 1660 = blackSample := by
  decide

theorem test_luminance_of_the_worked_pixel : luminance ⟨550#10, 300#10, 100#10⟩ = 337 := by decide

theorem test_light_fractions :
    lightFraction 8485171200 = 1000 ∧ lightFraction 2121292800 = 250 ∧ lightFraction 4246732800 = 500
      ∧ lightFraction 0 = 0 := by decide

theorem test_source_edges :
    sourcePosition ⟨1, 0, 3840, 125763584, 65536, 0, 0⟩ ⟨1920, 1080⟩ 0 = some (125763584, 0)
      ∧ sourcePosition ⟨1, 0, 3840, 125763584, 65536, 0, 0⟩ ⟨1920, 1080⟩ 1 = none
      ∧ sourcePosition ⟨1, 0, 3840, -1, 1, 0, 0⟩ ⟨1920, 1080⟩ 0 = none
      ∧ sourcePosition ⟨1, 0, 3840, 0, 0, 70713345, 0⟩ ⟨1920, 1080⟩ 0 = none := by decide

theorem test_grid_lines :
    gridSample ⟨1920, 1080⟩ 1079 5 = ⟨1023#10, 1023#10, 1023#10⟩
      ∧ gridSample ⟨1920, 1080⟩ 5 1919 = ⟨1023#10, 1023#10, 1023#10⟩
      ∧ gridSample ⟨1920, 1080⟩ 5 1918 = ⟨64#10, 64#10, 64#10⟩
      ∧ gridSample ⟨1920, 1080⟩ 240 5 = ⟨1023#10, 1023#10, 1023#10⟩ := by decide

/-! ### Corner generation (spec 03, the worked trapezoid) -/

def trapezoid : CornerSet := ⟨⟨200, 100⟩, ⟨3639, 100⟩, ⟨0, 2059⟩, ⟨3839, 2059⟩⟩

theorem test_generated_lines :
    generatedLine trapezoid ⟨1920, 1080⟩ 99 = some darkRecord
      ∧ generatedLine trapezoid ⟨1920, 1080⟩ 100 = some ⟨1, 200, 3640, 0, 36570, 0, 0⟩
      ∧ generatedLine trapezoid ⟨1920, 1080⟩ 1079 = some ⟨1, 101, 3739, 32797, 34561, 35338624, 0⟩
      ∧ generatedLine trapezoid ⟨1920, 1080⟩ 2059 = some ⟨1, 0, 3840, 0, 32759, 70713344, 0⟩
      ∧ generatedLine trapezoid ⟨1920, 1080⟩ 2060 = some darkRecord := by decide

theorem test_sloping_top_line :
    (generatedLine ⟨⟨0, 0⟩, ⟨3839, 400⟩, ⟨0, 2159⟩, ⟨3839, 2159⟩⟩ ⟨3840, 2160⟩ 0).map (fun r => (r.dv, r.failure))
      = some (-8381, some .rowSpan) := by
  decide

/-! ### Lens axes (spec 04) -/

/-- "A backlash move under CEILING". -/
def ceilingV : State := idleAt { ready with picture := { ready.picture with orientation := .ceiling } } .v 6000

def movedV : State := run .move (given ceilingV 0x10#8 [0#16, 7200#16, 1#16])

theorem test_backlash_move_has_two_legs :
    ((movedV.axis .v).phase.record.map (·.legs)) = some [⟨7224, .raise⟩, ⟨7200, .lower⟩]
      ∧ (movedV.axis .v).ring = [6000] ∧ (movedV.axis .v).dirOut = .raise ∧ movedV.intake.free = 32 := by decide

theorem test_rate_law :
    (List.map (fun k => stepRate ⟨400, 2000, 400⟩ (rampIndex ⟨400, 2000, 400⟩ k (1223 - k)))
      [0, 1, 100, 399, 400, 823, 824, 1223]) = [400, 404, 800, 1996, 2000, 2000, 1996, 400]
      ∧ stepRate ⟨300, 300, 0⟩ (rampIndex ⟨300, 300, 0⟩ 7 7) = 300 := by decide

theorem test_first_step_of_a_leg : ((run (.axisStep .v) movedV).axis .v).pos = 6001 := by decide

/-- "The return ring", its third line: a MOVE to where the axis stands pushes nothing and is done at once. -/
theorem test_move_to_the_position_pushes_nothing :
    let t := run .move (given (idleAt ready .f 2150 [2000, 1800]) 0x10#8 [2#16, 2150#16, 0#16])
    (t.axis .f).ring = [2000, 1800] ∧ (t.axis .f).phase = .idle ∧ t.sender.has (.moveDone .f) = true := by decide

theorem test_move_beyond_the_travel_is_clamped :
    let t := run .move (given (idleAt ready .f 2000 [1800]) 0x10#8 [2#16, 5000#16, 2#16])
    (t.axis .f).phase.record.map (·.target) = some 4000 ∧ (t.axis .f).ring = [2000, 1800]
      ∧ t.intake.replies.map (·.outcome) = [.clamped 4000#16] := by decide

theorem test_return_on_an_empty_ring :
    (run .returnMove (given (idleAt ready .f 1800) 0x13#8 [2#16])).intake.replies.map (·.outcome)
      = [.refused .nothing] := by decide

theorem test_ninth_push_removes_the_oldest :
    ((idleAt ready .f 1880 [1870, 1860, 1850, 1840, 1830, 1820, 1810, 1800]).axis .f).push 1890
      = { (idleAt ready .f 1880).axis .f with ring := [1880, 1870, 1860, 1850, 1840, 1830, 1820, 1810] } := by
  decide

/-- "Homing V" (spec 11.3): the bounds of the two legs, and the end. -/
def homingV : State := run .home (given ready 0x15#8 [1#16])

def backingV : State := run (.limitSwitchClose .v) homingV

theorem test_homing_bounds :
    (match (homingV.axis .v).phase, (backingV.axis .v).phase with
      | .homing x, .homing y => some (x.phase, x.bound, y.phase, y.bound)
      | _, _ => none) = some (.seek, 13200, .backoff, 280) := by decide

theorem test_homing_ends_at_the_opening :
    let t := run (.limitSwitchOpen .v) (run (.axisStep .v) backingV)
    (t.axis .v).phase = .idle ∧ (t.axis .v).pos = 0 ∧ (t.axis .v).lastEnd = .homed
      ∧ t.sender.has (.homeDone .v) = true := by decide

/-- SEEK with all the steps of its bound taken. -/
def soughtV : State :=
  homingV.setPhase .v (.homing ⟨.seek, 13200, ⟨300, 300, 0⟩, 13200, 0, none⟩)

theorem test_broken_switch_wire :
    let t := run (.homingBoundReached .v) soughtV
    (t.axis .v).phase = .fault ∧ (t.axis .v).lastEnd = .homeFailed .noSwitch
      ∧ t.prot.pending.lensFault = true := by decide

/-- R185: the closure on SEEK's last step is taken before the bound, and BACKOFF begins. -/
theorem test_closure_before_the_bound :
    (match ((run (.homingBoundReached .v) (run (.limitSwitchClose .v) soughtV)).axis .v).phase with
      | .homing x => some (x.phase, x.steps)
      | _ => none) = some (.backoff, 0) := by decide

/-- The driver fault input of an axis asserted. -/
def faulty (s : State) (a : Axis) : State := s.setPin a ⟨false, true⟩

/-- R185: HOME after a driver fault assertion begins a sequence whose first leg ends in FAULT; H homes on. -/
theorem test_home_finds_the_driver_fault :
    let t := run .home (given (faulty ready .v) 0x15#8 [3#16])
    (t.axis .v).phase = .fault ∧ (t.axis .v).lastEnd = .fault .driver ∧ t.sender.has (.homeFailed .v) = true
      ∧ t.sender.has (.axisFault .v) = true ∧ (t.axis .h).phase.isHoming = true := by decide

/-- "Hold, resume and lock": HOLD after step 600 leaves 400 deceleration steps. -/
theorem test_hold_decelerates :
    let m : MoveRec := ⟨7200, .commanded, 1, ⟨400, 2000, 400⟩, [⟨7224, .raise⟩, ⟨7200, .lower⟩], 1, 601, 400, ⟨1, 1⟩⟩
    ((run .hold (given ((idleAt ready .v 6601).setPhase .v (.moving m)) 0x11#8 [0#16])).axis .v).phase
      = .stopping m .holding 400 := by decide

/-! ### Placement (spec 05, "A handover under CEILING") -/

def handover : State := idleAt ceilingV .h 3000

def placed : State := run .place (given handover 0x16#8 [0#16, 300#16])

theorem test_place_targets :
    placed.place.posVt = 7200 ∧ placed.place.posHt = 3000 ∧ placed.place.state = .tracking
      ∧ placed.place.outV = true ∧ placed.place.outH = false
      ∧ ((placed.axis .v).phase.record.map (·.legs)) = some [⟨7224, .raise⟩, ⟨7200, .lower⟩] := by decide

/-- R79, R93: PLACE finds the driver fault of V, and the placement ends. -/
theorem test_place_finds_the_driver_fault :
    let t := run .place (given (faulty handover .v) 0x16#8 [0#16, 300#16])
    (t.axis .v).phase = .fault ∧ t.place.state = .none ∧ (t.axis .h).phase = .idle := by decide

/-- The offset with V at a position and the margins of the worked table. -/
def offsetAt (pos : Nat) : Int × Int × Bool :=
  let o := (placed.setAxis .v { placed.axis .v with pos := pos }).frameOffset ⟨100, 150, 20, 20⟩
  (o.dyRaw, o.dy, o.clampedY)

theorem test_offsets_on_the_way :
    offsetAt 6000 = (300, 150, true) ∧ offsetAt 6403 = (199, 150, true) ∧ offsetAt 6598 = (151, 150, true)
      ∧ offsetAt 6599 = (150, 150, false) ∧ offsetAt 7224 = (-6, -6, false) := by decide

theorem test_compensation_between_breakpoints :
    interpolate [⟨160, 0⟩, ⟨200, 10⟩, ⟨240, 25⟩, ⟨280, -5⟩] 170 = 2
      ∧ interpolate [⟨160, 0⟩, ⟨200, 10⟩, ⟨240, 25⟩, ⟨280, -5⟩] 241 = 24
      ∧ interpolate [⟨160, 0⟩, ⟨200, 10⟩, ⟨240, 25⟩, ⟨280, -5⟩] 400 = -5 := by decide

/-! ### Sensors, light, fans (spec 06, 07, 08) -/

theorem test_reading_filter :
    [filtered (some 330) 360, filtered (some 300) 304, filtered (some 300) 303, filtered (some 300) 296,
      filtered (some 300) 295, filtered (some 343) 320, filtered none 212]
      = [334, 301, 300, 300, 299, 340, 212] := by decide

/-- "A laser plate crossing its threshold", window end 3. -/
def warmLaser : State := ready.setSensor .laser { ready.sensor .laser with reading := some 337 }

theorem test_threshold_makes_the_source_pending :
    let t := run (.windowEnd .laser 360#16) warmLaser
    (t.sensor .laser).reading = some 340 ∧ (t.sensor .laser).high = true ∧ t.prot.pending.tempLaser = true
      ∧ t.prot.c = 2 ∧ t.fans.floor = 600 := by decide

theorem test_faulted_sample_holds_the_reading :
    let t := run (.windowEnd .laser 1000#16) (ready.setSensor .laser { ready.sensor .laser with
      reading := some 340, high := true })
    (t.sensor .laser).reading = some 340 ∧ (t.sensor .laser).fanReading = 420 ∧ t.prot.pending.sensorFault = true
      ∧ t.prot.pending.trip = false := by decide

theorem test_heat_splits :
    [heatOf 700 1000, heatOf 700 250, heatOf 700 40, heatOf 333 337]
      = [⟨700, 700, 0⟩, ⟨700, 175, 525⟩, ⟨700, 28, 672⟩, ⟨333, 112, 221⟩] := by decide

theorem test_drive_steps :
    steppedDrive 750 500 500 = 500 ∧ steppedDrive 740 1000 750 = 750 ∧ steppedDrive 10 1000 0 = 0
      ∧ steppedDrive 0 1000 750 = 20 := by decide

/-- The worked update of the LIGHT fan (spec 08.7). -/
theorem test_light_fan_demand :
    (defaultFanRecord .light).curveValue .ceiling 325 = 430
      ∧ (defaultFanRecord .light).feedForward ⟨700, 175, 525⟩ = 560
      ∧ demandOf 430 560 300 450 true = 450 ∧ slewedDuty 380 450 300 = 430 ∧ slewedDuty 430 450 300 = 450
      ∧ demandOf 430 560 600 450 false = 600 ∧ demandOf 1 0 0 450 false = 200 := by decide

/-- R136: the slew starts from the duty before the update, 400, though EXHAUST's stall (level 2) raises it to 600
within the update. -/
theorem test_slew_starts_before_the_update :
    let running := fun (x : Fan) (record : FanRecord) (stallRun count : Nat) =>
      { powerOnFan x with record := record, state := .running, duty := 400, stallRun := stallRun, count := count }
    let record := { defaultFanRecord .light with floorSet := List.replicate 6 ⟨0, 700⟩ }
    let s := (ready.setFan .light (running .light record 0 100)).setFan .exhaust
      (running .exhaust (defaultFanRecord .exhaust) 2 0)
    let t := run .fanUpdate s
    (t.fan .light).lastDemand = 700 ∧ t.fans.floor = 600 ∧ (t.fan .light).duty = 600 := by decide

theorem test_stall_at_the_third_period :
    ({ powerOnFan .light with state := .running, duty := 600, stallRun := 2, speed := 299 } : FanUnit).judged.state
      = .stalled ∧
    ({ powerOnFan .light with state := .running, duty := 600, stallRun := 2, speed := 300 } : FanUnit).judged.state
      = .running := by decide

/-! ### Protection (spec 09.7) -/

theorem test_escalation_reaches_three :
    let s := ((ready.makePending .tempDump).makePending .tempLaser).makePending .tempPanel
    let t := s.makePending .stallLight
    s.prot.c = 2 ∧ s.prot.cause = .source .tempLaser ∧ t.prot.c = 3 ∧ t.prot.cause = .source .stallLight
      ∧ t.light.limit = 200 ∧ (t.axis .v).protLock = true := by decide

theorem test_lower_stops_at_the_pending_sources :
    let s := ((ready.makePending .tempDump).makePending .tempLaser).makePending .stallLight
    let cleared := { s with prot := { s.prot with pending := s.prot.pending.set .stallLight false } }
    let t := run .lower (given cleared 0x04#8 [0#16])
    t.prot.c = 2 ∧ t.prot.cause = .source .tempLaser ∧ t.light.limit = 500 ∧ (t.axis .v).protLock = false := by
  decide

theorem test_level_four_gate :
    let s := (ready.setSensor .dump { ready.sensor .dump with reading := some 418 }).makePending .trip
    (run .lower (given s 0x04#8 [0#16])).intake.replies.map (·.outcome) = [.refused .badState] := by decide

/-! ### Messages (spec 10) -/

/-- The register starts at all ones (R163). -/
theorem test_check_word_of_no_words : checkWord [] = 0xFFFF#16 := by decide

/-- The bytes 0x31 to 0x38 as four words; computed by an independent program of the same generator. -/
theorem test_check_word_of_four_words : checkWord [0x3132#16, 0x3334#16, 0x3536#16, 0x3738#16] = 0xA12B#16 := by
  decide +kernel

theorem test_message_is_read_back :
    readSlot (slotWords ⟨0x10#8, 0x21#8, 1#8, [0#16, 7200#16, 1#16]⟩ ++ List.replicate 59 0#16)
      = .good ⟨0x10#8, 0x21#8, 1#8, [0#16, 7200#16, 1#16]⟩ := by decide +kernel

theorem test_empty_slot : readSlot (List.replicate 65 0#16) = .empty := by decide

/-- "One transaction": STOP overtakes the earlier QUERY, and the envelopes stay 32. -/
theorem test_urgent_overtakes :
    let i := ((resetIntake.enqueue (msg 0x61#8 [0#16, 0#16])).enqueue (msg 0x01#8 [1#16])).takeNext
    (i.slot.map (·.kind)) = some 0x01#8 ∧ i.setup.length = 1 := by decide

/-- "A drained pool": 80 item words go in two parts, of 62 and 18 words. -/
theorem test_sensors_reply_has_two_parts :
    let r : Reply := ⟨0x61#8, 1#8, .data (sensorsItems ready), 0⟩
    r.more 0 = true ∧ r.more 1 = false ∧ (r.part 0).length = 62 ∧ (r.part 1).length = 18 := by decide

/-- Reason and line have one presence word (spec 10.8): "Two failures" of spec 03, and no outcome. -/
theorem test_generation_outcome_words :
    genOutcomeWords (.failed .badShape 0) = [2#16, 1#16, 5#16, 0#16]
      ∧ genOutcomeWords (.failed (.test .rowSpan) 0) = [2#16, 1#16, 4#16, 0#16]
      ∧ genOutcomeWords .success = [1#16, 0#16, 0#16, 0#16] := by decide

theorem test_good_message_without_an_envelope_is_dropped :
    let t := ({ ready with intake := { resetIntake with free := 0 } } : State).arrive (msg 0x01#8 [0#16])
    t.intake.dropped = 1 ∧ t.sender.has .dropped = true ∧ t.sender.notice = .queued := by decide

/-! ### Witnesses: the promises that every step keeps

One busy state meets every promise: level 2 is in force, a frame is in flight, V makes a placement move, messages
wait, and the front command is a window end that trips. -/

def busyMove : MoveRec :=
  ⟨7200, .placement, 1, ⟨400, 2000, 400⟩, [⟨7200, .raise⟩], 1, 3, 2, ⟨1, 100⟩⟩

def busyBank : Bank := ⟨⟨640, 360⟩, .loaded, [(5, ⟨1, 0, 640, 0, 65536, 0, 0⟩)]⟩

def busy : State :=
  let s := ready.makePending .stallExhaust
  let s := s.setAxis .v { s.axis .v with phase := .moving busyMove, pos := 6003, ring := [6000] }
  let s := s.setSensor .dump { s.sensor .dump with reading := some 437 }
  { s with
    pending := [.windowEnd .dump 461#16]
    link := { powerOnLink with
      present := true, timerRunning := true, lastParity := some .even, lastSize := some ⟨640, 360⟩
      inputSlot := .s1, readSlot := some .s0, slot0 := ⟨⟨640, 360⟩, true, true, false, 360⟩
      slot1 := ⟨⟨640, 360⟩, false, true, false, 2⟩, activeLines := 2 }
    intake := { resetIntake with
      free := 29, motion := [msg 0x10#8 [0#16, 5#16, 1#16]], slot := some (msg 0x01#8 [0#16])
      replies := [⟨0x61#8, 1#8, .done, 0⟩] }
    picture := { s.picture with
      frame := some ⟨some (.s0, ⟨640, 360⟩), .identity, .floor, .a, 0, 0, .even, false, 3, 100⟩ }
    table := { s.table with bankA := busyBank, margins := busyBank.margins }
    place := { s.place with state := .tracking, oy := 300, posVt := 7200, posHt := 3000, outV := true }
    light := { s.light with b := 750, d := 300 } }

theorem busy_intake : busy.intake.Sound where
  total := by decide
  urgent := by decide
  motion := by decide
  setup := by decide
  taken := by decide

theorem busy_sender : busy.sender.Sound where
  flags := by decide
  mask := by decide
  quiet := by decide
  queued := by decide

theorem busy_actions : busy.prot.table.Sound where
  one := ⟨by decide, by decide⟩
  two := ⟨by decide, by decide⟩
  three := ⟨by decide, by decide⟩
  lower := by decide
  upper := by decide

theorem busy_protection : busy.prot.Sound where
  trip := by decide
  levels := by intro x; cases x <;> decide
  current := by decide
  noneAbove := by intro x; cases x <;> decide
  cause := by decide

theorem busy_inForce : busy.ActionsInForce where
  limit := by decide
  floor := by decide
  lifted := by decide
  lock := by intro a; cases a <;> decide
  mute := by decide

theorem busy_light : busy.light.Sound where
  brightness := by decide
  limit := by decide
  drive := by decide
  split := ⟨by decide, by decide⟩
  sums := ⟨by decide, by decide⟩
  averages := by decide

theorem busy_fans : ∀ x, (busy.fan x).Sound busy.fans.floor := by
  intro x
  cases x <;> exact
    { record := ⟨⟨by decide, by decide, by decide, by decide⟩, ⟨by decide, by decide, by decide, by decide⟩,
        by decide, by decide⟩
      floor := by decide, top := by decide, stopped := by decide, spinup := by decide, history := by decide
      counts := by decide, running := by decide, stalled := by decide }

theorem busy_lens : busy.lens.Sound where
  axes := by
    intro a
    cases a <;> exact
      { cal := ⟨by decide, by decide, by decide, by decide⟩
        unhomed := by decide, position := by decide, ring := by decide
        record := by
          intro m h
          first
            | (cases h; done)
            | (cases h
               exact ⟨by decide, by decide, by decide, by intro leg h; cases h; decide⟩)
        stopping := by intro m i l h; cases h
        locked := by decide }
  four := by decide
  profiles := by
    intro p h
    revert p
    have : ∀ p ∈ defaultProfiles, (100 ≤ p.start) ∧ (p.start ≤ p.top ∧ p.top ≤ 4000) ∧ p.ramp ≤ 2000 := by decide
    exact fun p h => ⟨(this p h).1, (this p h).2.1, (this p h).2.2⟩

theorem busy_placement : busy.PlacementSound where
  outV := fun _ => ⟨busyMove, rfl, rfl⟩
  outH := by decide
  tracking := by decide
  settle := by decide
  dx := by decide
  dy := by decide
  upkeep := by decide
  retarget := by intro a m t l h; cases a <;> cases h

theorem busy_sensors : busy.sensors.Sound where
  units := by
    intro x
    cases x <;> exact
      { settings := ⟨by decide, by decide, by decide⟩
        pend := by intro p h; cases h
        reading := by intro r h; first | (cases h; done) | (cases h; decide)
        high := by decide }
  criteria := by decide

theorem busy_tables : busy.TablesSound where
  bankA := by decide
  bankB := by decide
  active := by decide
  committed := by decide
  opened := by decide
  host := by intro c h; cases h
  corners := by decide
  margins := by decide

theorem busy_picture : busy.PictureSound where
  roles := by intro i h; cases h; exact ⟨rfl, rfl, by decide⟩
  frame := by intro f h; cases h; exact ⟨by decide, by decide, by decide⟩
  read := by intro f i z h hb hr; cases h; cases hr; exact ⟨rfl, rfl⟩
  light := by decide
  memory := by decide

theorem busy_startup : busy.StartupSound where
  starting := by decide
  ready := by decide
  startMute := by decide
  memoryMute := by decide

/-- A state that meets every promise, and whose step answers a next state at level 4. -/
theorem witness_promises : busy.Sound ∧ ∃ t, step busy = .next t ∧ t.prot.c = 4 :=
  ⟨⟨busy_intake, busy_sender, busy_actions, busy_protection, busy_inForce, busy_light, busy_fans, busy_lens,
    busy_placement, busy_sensors, busy_tables, busy_picture, busy_startup⟩, _, rfl, by decide⟩

/-! ### Witnesses: steps and resets -/

theorem witness_StepRunsFrontCommand : State.reset.pending = [] := rfl

theorem witness_NoCommandStopsThePart :
    (∀ a, Instr.fanUpdate ≠ .limitSwitchClose a) ∧ (∀ a, Instr.fanUpdate ≠ .limitSwitchOpen a)
      ∧ (∀ a b, Instr.fanUpdate ≠ .driverFault a b) ∧ Instr.fanUpdate ≠ .powerOnReset
      ∧ Instr.fanUpdate ≠ .supplyDipReset ∧ ∀ i, Instr.fanUpdate ≠ .heldInReset i := by
  simp

/-- The part held by both inputs, by the supply monitor alone, and by neither. -/
def held : State := { ready with hold := ⟨true, true, true⟩ }

theorem witness_ReleaseGivesPowerOnValues :
    ready.hold.supply = false ∧ ready.hold.powerOn = false ∧ held.hold.supply = true ∧ held.hold.powerOn = true :=
  ⟨rfl, rfl, rfl, rfl⟩

theorem witness_HeldPartDoesNothing :
    held.hold.held = true ∧ Instr.driverFault .v true ≠ .powerOnReset ∧ Instr.driverFault .v true ≠ .supplyDipReset
      ∧ ∀ i, Instr.driverFault .v true ≠ .heldInReset i := by
  simp [held, Hold.held]

theorem witness_SelfCheckDecidesThePart :
    State.reset.hold.held = false ∧ State.reset.startup.check = .running := ⟨rfl, rfl⟩

/-- SOFT_RESET with the link ABSENT and an axis UNHOMED, and with it PRESENT and an axis IDLE. -/
theorem witness_SoftResetKeepsAndDiscards :
    (given ready 0x06#8 []).Executes (msg 0x06#8 []) 0x06#8 [] ∧ ready.link.present = false
      ∧ (ready.axis .v).phase ≠ .idle
      ∧ (given (idleAt busy .f 1800) 0x06#8 []).Executes (msg 0x06#8 []) 0x06#8 []
      ∧ busy.link.present = true ∧ ((idleAt busy .f 1800).axis .f).phase = .idle :=
  ⟨given_executes _ _, rfl, by decide, given_executes _ _, rfl, rfl⟩

/-! ### Witnesses: the link and the picture -/

/-- The link PRESENT with an input slot whose frame is whole (the smallest format), or one line short. -/
def linked (counted : Nat) : State :=
  { ready with link := { powerOnLink with
      present := true, timerRunning := true, lastParity := some .odd, lastSize := some ⟨640, 360⟩
      slot0 := ⟨⟨640, 360⟩, false, true, false, counted⟩, activeLines := 359 } }

theorem witness_FrameStartSetsSlotRoles :
    (linked 360).hold.held = false ∧ ready.link.present = false ∧ (linked 360).link.present = true
      ∧ (let r := (linked 360).link.slotRecord (linked 360).link.inputSlot
         r.opened = true ∧ r.size.inFormats = true ∧ r.counted = r.size.h ∧ r.spoiled = false)
      ∧ ¬ (let r := (linked 359).link.slotRecord (linked 359).link.inputSlot
           r.opened = true ∧ r.size.inFormats = true ∧ r.counted = r.size.h ∧ r.spoiled = false) := by
  decide

theorem witness_FrameStartBeginsOneFrame : ready.hold.held = false := rfl

/-- A commit waiting with each parity condition. -/
def committing (cond : ParityCond) : State := { ready with table := { ready.table with commit := some cond } }

theorem witness_FrameStartTakesThePendingCommit :
    (committing .even).hold.held = false ∧ (committing .even).table.commit = some .even
      ∧ (committing .odd).table.commit = some .odd ∧ (committing .any).table.commit = some .any
      ∧ ready.table.commit = none := ⟨rfl, rfl, rfl, rfl, rfl⟩

/-- TABLE mode with the whole 640 × 360 frame of `linked`, against an active bank of a size, with AUTO as given, the
corners of the panel stored, and a mismatch run and a generation as given. -/
def mapping (bank : Size) (auto : Bool) (mismatch running : Option Size) : State :=
  { linked 360 with
    picture := { (linked 360).picture with mode := .table }
    table := { (linked 360).table with
      bankA := ⟨bank, .loaded, []⟩, auto := auto, mismatch := mismatch }
    gen := ⟨some ⟨⟨0, 0⟩, ⟨3839, 0⟩, ⟨0, 2159⟩, ⟨3839, 2159⟩⟩, running, .none⟩ }

/-- The mismatch check: of equal size, of another with no run, with a run of that size and with a generation
running for it and for another; and no read slot. -/
theorem witness_mismatch_check :
    (let t := run (.inputFrameStart .even 640#16 360#16) (mapping ⟨640, 361⟩ true none (some ⟨640, 359⟩))
     t.link.readSlot.map (fun i => (t.link.slotRecord i).size) = some ⟨640, 360⟩
      ∧ t.table.activeBank.size = ⟨640, 361⟩)
    ∧ (mapping ⟨640, 361⟩ true none (some ⟨640, 359⟩)).table.mismatch ≠ some ⟨640, 360⟩
    ∧ (mapping ⟨640, 361⟩ true none (some ⟨640, 359⟩)).gen.running ≠ some ⟨640, 360⟩
    ∧ (mapping ⟨640, 361⟩ true none (some ⟨640, 359⟩)).gen.corners ≠ none
    ∧ (mapping ⟨640, 361⟩ true none (some ⟨640, 360⟩)).gen.running = some ⟨640, 360⟩
    ∧ (mapping ⟨640, 361⟩ false none none).table.auto = false
    ∧ (mapping ⟨640, 361⟩ true (some ⟨640, 360⟩) none).table.mismatch = some ⟨640, 360⟩
    ∧ (let t := run (.inputFrameStart .even 640#16 360#16) (mapping ⟨640, 360⟩ true none none)
       t.link.readSlot.map (fun i => (t.link.slotRecord i).size) = some t.table.activeBank.size)
    ∧ (run (.inputFrameStart .even 640#16 360#16) ready).link.readSlot = none
    ∧ ready.picture.mode ≠ .table := by
  decide

/-- No placement, one in TRACKING, and one with settle due. -/
theorem witness_UnclampedOffsetIsWithinHalfAPixel :
    placed.hold.held = false ∧ placed.place.state ≠ .none ∧ ready.place.state = .none
      ∧ ({ placed with place := placed.place.moveEnded .v false } : State).place.settleDue = true
      ∧ (let s := placed.setAxis .v { placed.axis .v with pos := 6598 }
         2 * |s.place.oy * 1024 - (((s.axis .v).pos : Int) - (s.axis .v).cal.reference) * (s.axis .v).cal.pps
            - 151 * 1024| = 1024) := by
  decide

/-- Line 359, the last of the smallest format, and the line after it. -/
theorem witness_ActiveLineWritesItsRow :
    (let s := linked 359
     s.hold.held = false ∧ s.link.present = true ∧ s.startup.part = .ready
      ∧ (s.link.slotRecord s.link.inputSlot).opened = true
      ∧ (s.link.slotRecord s.link.inputSlot).size.inFormats = true
      ∧ s.link.activeLines < (s.link.slotRecord s.link.inputSlot).size.h)
    ∧ (let s := { linked 360 with link := { (linked 360).link with activeLines := 360 } }
       ¬ s.link.activeLines < (s.link.slotRecord s.link.inputSlot).size.h)
    ∧ (639 < 640 ∧ (List.replicate 640 blackSample)[639]? = some blackSample) := by
  refine ⟨by decide, by decide, by decide, ?_⟩
  rw [List.getElem?_replicate, if_pos (by decide)]

/-- A blanking interval before its last examined slot, and the next one. -/
def blanking (slots : Nat) (s : State) : State :=
  { s with link := { powerOnLink with present := true, timerRunning := true, blankingSlots := slots } }

theorem witness_BlankingSlotFillsAnEnvelope :
    (let s := blanking 175 ready
     s.hold.held = false ∧ s.link.present = true ∧ s.link.activeLines = 0 ∧ s.link.blankingSlots < 176
      ∧ s.intake.free ≠ 0 ∧ s.intake.slot = none ∧ s.intake.queued = 0)
    ∧ 176 ≤ (blanking 176 ready).link.blankingSlots ∧ ready.link.present = false ∧ 0 < (linked 1).link.activeLines
    ∧ readSlot (List.replicate 65 0#16) = .empty
    ∧ readSlot [0x0100#16, 0x003F#16] = .bad
    ∧ readSlot (slotWords (msg 0x01#8 [0#16])) = .good (msg 0x01#8 [0#16])
    ∧ ({ blanking 0 ready with intake := { resetIntake with free := 0 } } : State).intake.free = 0
    ∧ (given (blanking 0 ready) 0x01#8 [0#16]).intake.slot = some (msg 0x01#8 [0#16]) := by
  refine ⟨by decide, by decide, by decide, by decide, by decide, by decide, by decide +kernel, rfl, rfl⟩

theorem witness_SlotWordsAreReadBack :
    (msg 0x61#8 (List.replicate 62 0#16)).kind ≠ 0#8 ∧ (msg 0x61#8 (List.replicate 62 0#16)).payload.length ≤ 62
      ∧ (0#16 ≠ checkWord [wordOf 0x01#8 0#8, wordOf 0#8 0#8]) ∧ 0x01#8 ≠ 0#8 ∧ 62 < (63#8).toNat := by
  refine ⟨by decide, by decide, by decide +kernel, by decide, by decide⟩

theorem witness_LinkLossTakesEffectAtOnce : busy.hold.held = false ∧ busy.link.timerRunning = true := ⟨rfl, rfl⟩

/-- A frame before its last line, and after it. -/
def framed (row : Nat) : State :=
  { ready with picture := { ready.picture with
      frame := some ⟨none, .identity, .floor, .a, 0, 0, .even, false, row, 0⟩ } }

/-- R4: the parity fixed at the frame's start goes with its first line, though SOFT_RESET falls between. -/
theorem test_parity_is_fixed_for_the_frame :
    let s := given (run (.inputFrameStart .odd 640#16 360#16) ready) 0x06#8 []
    ((run .outputLine (run .softReset s)).picture.panelOut.map (·.start)) = some (some .odd) := by decide

theorem witness_OutputLineSendsTheNextRow :
    (framed 2159).hold.held = false
      ∧ (framed 2159).picture.frame = some ⟨none, .identity, .floor, .a, 0, 0, .even, false, 2159, 0⟩ ∧ 2159 < 2160 :=
  ⟨rfl, rfl, by decide⟩

theorem witness_FrameEndDeliversTheLightFraction :
    (framed 2160).hold.held = false
      ∧ (framed 2160).picture.frame = some ⟨none, .identity, .floor, .a, 0, 0, .even, false, 2160, 0⟩
      ∧ (framed 0).picture.frame = some ⟨none, .identity, .floor, .a, 0, 0, .even, false, 0, 0⟩ ∧ 0 < 2160 :=
  ⟨rfl, rfl, rfl, by decide⟩

/-- The worked pixel lies inside with an admitted position; column 99 of its record does not; and a frame of
each other mode. -/
theorem witness_CoordinateChainFollowsTheRecord :
    (let r := bankRecord chainBank 500
     r.kind = 1 ∧ (r.xLeft : Int) ≤ 103 ∧ (103 : Int) < r.xRight ∧ 0 ≤ r.u0 + (103 - r.xLeft) * r.du
      ∧ 0 ≤ r.v0 + (103 - r.xLeft) * r.dv ∧ r.u0 + (103 - r.xLeft) * r.du ≤ ((1920 : Int) - 1) * 65536
      ∧ r.v0 + (103 - r.xLeft) * r.dv ≤ ((1080 : Int) - 1) * 65536 ∧ (99 : Int) < r.xLeft)
    ∧ chainFrame.mode = .table ∧ chainFrame.orientation = .ceiling
    ∧ (0 ≤ (3839 : Int) - 3734 - 2 ∧ (3839 : Int) - 3734 - 2 ≤ 3839 ∧ 0 ≤ (2159 : Int) - 1660 - -1
        ∧ (2159 : Int) - 1660 - -1 ≤ 2159)
    ∧ ¬ (0 ≤ (3839 : Int) - 3838 - 2)
    ∧ ({ chainFrame with mode := .mute } : OutFrame).mode = .mute
    ∧ ({ chainFrame with mode := .identity } : OutFrame).mode = .identity
    ∧ ({ chainFrame with mode := .grid } : OutFrame).mode = .grid := by
  decide

theorem witness_SamplingStaysInTenBits :
    (∀ r c : Nat, (fun _ _ => 1023 : Nat → Nat → Nat) r c ≤ 1023)
      ∧ (let p : Nat → Nat → Nat := fun _ c => if c < 5 then 400 else 600
         p 10 3 = 400 ∧ p 10 (min 4 1919) = 400 ∧ p (min 11 1079) 3 = 400 ∧ p (min 11 1079) (min 4 1919) = 400)
      ∧ 125763584 % 65536 = 0 ∧ 70713344 % 65536 = 0 := by
  refine ⟨fun _ _ => Nat.le_refl _, by decide, by decide, by decide⟩

/-! ### Witnesses: the return lane and the executor -/

theorem witness_SendOpportunityPrefersTheNotice :
    ready.hold.held = false ∧ (ready.raise .ready).sender.notice = .queued
      ∧ ready.sender.notice ≠ .queued ∧ ready.intake.replies = []
      ∧ busy.sender.notice = .queued
      ∧ ({ ready with intake := { resetIntake with free := 31, replies := [⟨0x61#8, 1#8, .done, 0⟩] } } : State).intake.replies
          = ⟨0x61#8, 1#8, .done, 0⟩ :: [] := by
  decide

/-- 63 items: part 0 is marked MORE, part 1 is the last. -/
theorem witness_ReplyPartsCarryAllItems :
    let r : Reply := ⟨0x61#8, 1#8, .data (List.replicate 63 0#16), 0⟩
    r.more 1 = false ∧ ∀ n, n < 1 → r.more n = true := by
  decide

theorem witness_ExecutionEndsInReplyOrPool :
    let e := msg 0x01#8 [0#16]
    let i : Intake := resetIntake
    (MsgOutcome.done = .done ∧ e.replyOnDone = false)
      ∧ ¬ (MsgOutcome.refused .busy = .done ∧ e.replyOnDone = false)
      ∧ (i.enqueue e).urgent = e :: [] ∧ (i.enqueue (msg 0x10#8 [])).urgent = []
      ∧ (i.enqueue (msg 0x10#8 [])).motion = msg 0x10#8 [] :: []
      ∧ (i.enqueue (msg 0x61#8 [])).urgent = [] ∧ (i.enqueue (msg 0x61#8 [])).motion = []
      ∧ (i.enqueue (msg 0x61#8 [])).setup = msg 0x61#8 [] :: [] ∧ i.queued = 0 := by
  decide

theorem witness_UnknownKindIsRefused :
    (given ready 0x07#8 []).Executes (msg 0x07#8 []) 0x07#8 [] ∧ 0x07#8 ∉ assignedKinds :=
  ⟨given_executes _ _, by decide⟩

theorem witness_AcknowledgeAndMask :
    (given ready 0x05#8 [1#16, 0#16]).Executes (msg 0x05#8 [1#16, 0#16]) 0x05#8 [1#16, 0#16]
      ∧ (given ready 0x60#8 [0xFFFF#16, 0xFFFF#16]).Executes (msg 0x60#8 [0xFFFF#16, 0xFFFF#16]) 0x60#8
          [0xFFFF#16, 0xFFFF#16]
      ∧ (given ready 0x05#8 [1#16]).Executes (msg 0x05#8 [1#16]) 0x05#8 [1#16] ∧ [1#16].length ≠ 2
      ∧ (given ready 0x60#8 []).Executes (msg 0x60#8 []) 0x60#8 [] :=
  ⟨given_executes _ _, given_executes _ _, given_executes _ _, by decide, given_executes _ _⟩

theorem witness_FlagsAreSticky :
    (∃ t, exec .eventMask busy = .next t) ∧ busy.sender.has .sourcePending = true
      ∧ Instr.eventMask ≠ .eventAck ∧ Instr.eventMask ≠ .softReset ∧ Instr.eventMask ≠ .powerOnReset
      ∧ Instr.eventMask ≠ .supplyDipReset ∧ ∀ i, Instr.eventMask ≠ .heldInReset i :=
  ⟨⟨_, rfl⟩, by decide, by simp, by simp, by simp, by simp, by simp⟩

theorem witness_StartingRefusesTheLens :
    (given State.reset 0x10#8 [0#16, 0#16, 0#16]).Executes (msg 0x10#8 [0#16, 0#16, 0#16]) 0x10#8 [0#16, 0#16, 0#16]
      ∧ (given State.reset 0x10#8 [0#16, 0#16, 0#16]).startup.part = .starting :=
  ⟨given_executes _ _, rfl⟩

theorem witness_QueryReportsAndChangesNothing :
    (∀ a, (given ready 0x61#8 [0#16, axisWord a]).Executes (msg 0x61#8 [0#16, axisWord a]) 0x61#8 [0#16, axisWord a])
      ∧ 2 < (3#16).toNat ∧ (given ready 0x61#8 [0#16, 3#16]).Executes (msg 0x61#8 [0#16, 3#16]) 0x61#8 [0#16, 3#16]
      ∧ (∀ item : Word, (given ready 0x61#8 [item, 0#16]).Executes (msg 0x61#8 [item, 0#16]) 0x61#8 [item, 0#16])
      ∧ (1#16 ≠ 0#16)
      ∧ (∀ item : Word, (given ready 0x61#8 [item, 1#16]).Executes (msg 0x61#8 [item, 1#16]) 0x61#8 [item, 1#16])
      ∧ (given ready 0x61#8 []).Executes (msg 0x61#8 []) 0x61#8 [] ∧ ([] : List Word).length ≠ 2
      ∧ 10 < (11#16).toNat :=
  ⟨fun _ => given_executes _ _, by decide, given_executes _ _, fun _ => given_executes _ _, by decide,
    fun _ => given_executes _ _, given_executes _ _, by decide, by decide⟩

theorem witness_CountersAndCauseClearOnRequest :
    (∀ x : Word, (given ready 0x61#8 [7#16, x]).Executes (msg 0x61#8 [7#16, x]) 0x61#8 [7#16, x])
      ∧ (∀ x : Word, (given ready 0x61#8 [9#16, x]).Executes (msg 0x61#8 [9#16, x]) 0x61#8 [9#16, x])
      ∧ 1 < (2#16).toNat ∧ (given ready 0x61#8 [7#16, 0#16]).intake.Sound :=
  ⟨fun _ => given_executes _ _, fun _ => given_executes _ _, by decide,
    ⟨by decide, by decide, by decide, by decide, by decide⟩⟩

/-! ### Witnesses: protection -/

/-- TEMP_DUMP (level 1) below the level 2 in force, TRIP above it, and STALL_EXHAUST pending already. -/
theorem witness_PendingSourceRaisesTheLevel :
    busy.prot.pending.get .stallExhaust = true ∧ busy.prot.pending.get .tempDump = false
      ∧ (∀ y, (busy.makePending .tempDump).prot.pending.get y = true →
          (busy.makePending .tempDump).prot.levels.get y ≤ busy.prot.c)
      ∧ busy.prot.pending.get .trip = false
      ∧ ∃ y, (busy.makePending .trip).prot.pending.get y = true
          ∧ busy.prot.c < (busy.makePending .trip).prot.levels.get y :=
  ⟨by decide, by decide, by intro y; cases y <;> decide, by decide, .trip, by decide, by decide⟩

/-- The part at a level of its own choosing. -/
def atLevel (c : Nat) : State := { busy with prot := { busy.prot with c := c } }

/-- A level without the lens lock, and one with it that finds V moving, H decelerating to a hold and F locked. -/
theorem witness_DeliveryActsAtOnce :
    (busy.prot.table.actions busy.prot.c).lensLock = false
      ∧ ((atLevel 3).prot.table.actions (atLevel 3).prot.c).lensLock = true
      ∧ ((atLevel 3).axis .v).phase = .moving busyMove ∧ busyMove.lastIndex ≠ 0
      ∧ ((atLevel 3).axis .v).hostLock = false ∧ ((atLevel 3).axis .v).protLock = false := by
  refine ⟨by decide, by decide, rfl, by decide, rfl, rfl⟩

/-- The table of R75 at a delivery of level 3: V decelerates, H and F, UNHOMED, keep their state. -/
theorem test_delivered_lock :
    let t := (atLevel 3).deliver
    (t.axis .v).phase = .stopping busyMove (.idle .locked) 2 ∧ (t.axis .h).phase = .unhomed
      ∧ (t.axis .f).protLock = true := by decide

def threes : PerSource Nat := ⟨3, 3, 3, 3, 3, 3, 3, 3, 3, 3, 3, 3⟩

def threeWords : List Word := (allSources.drop 1).map fun x => BitVec.ofNat 16 (threes.get x)

/-- The fifteen fields of the default action table, whose level 1 limit stands at a boundary when it is 1000. -/
def actionPayload (table : ActionTable) : List Word :=
  [table.level1, table.level2, table.level3].flatMap fun a =>
    [BitVec.ofNat 16 a.limit, BitVec.ofNat 16 a.floor, flagWord a.capLifted, flagWord a.lensLock, flagWord a.mute]

theorem witness_LevelsActionsAndClear :
    (given busy 0x50#8 threeWords).Executes (msg 0x50#8 threeWords) 0x50#8 threeWords
      ∧ (∀ x, threes.get x ≤ 3)
      ∧ (given busy 0x50#8 [4#16]).Executes (msg 0x50#8 [4#16]) 0x50#8 [4#16] ∧ [4#16].length ≠ 11
      ∧ (∃ w ∈ [4#16], 3 < w.toNat)
      ∧ busy.prot.table.Sound
      ∧ (given busy 0x51#8 (actionPayload busy.prot.table)).Executes (msg 0x51#8 (actionPayload busy.prot.table))
          0x51#8 (actionPayload busy.prot.table)
      ∧ (given busy 0x51#8 []).Executes (msg 0x51#8 []) 0x51#8 [] ∧ (∀ t, [] ≠ actionPayload t)
      ∧ (given busy 0x03#8 [11#16]).Executes (msg 0x03#8 [11#16]) 0x03#8 [11#16]
      ∧ [11#16] = [BitVec.ofNat 16 (sourceNumber .memoryFault)]
      ∧ (ready.link.present = false ∧ busy.link.present = true)
      ∧ (given busy 0x03#8 [12#16]).Executes (msg 0x03#8 [12#16]) 0x03#8 [12#16]
      ∧ ∀ x, [12#16] ≠ [BitVec.ofNat 16 (sourceNumber x)] := by
  refine ⟨given_executes _ _, ?_, given_executes _ _, by decide, ⟨_, List.mem_singleton.2 rfl, by decide⟩,
    busy_actions, given_executes _ _, given_executes _ _, ?_, given_executes _ _, rfl, by decide, given_executes _ _,
    ?_⟩
  · intro x; cases x <;> decide
  · intro t; simp [actionPayload]
  · intro x; cases x <;> decide

/-- Level 4 with a hot sensor and with cool ones; targets at and below C; pending sources at, above and at most
the target. -/
theorem witness_LowerStopsAtPendingSources :
    ([] : List Word).length ≠ 1 ∧ (given busy 0x04#8 []).Executes (msg 0x04#8 []) 0x04#8 []
      ∧ (∀ w : Word, (given busy 0x04#8 [w]).Executes (msg 0x04#8 [w]) 0x04#8 [w])
      ∧ busy.prot.c ≤ (2#16).toNat ∧ (1#16).toNat < busy.prot.c ∧ busy.prot.c ≠ 4
      ∧ (busy.makePending .trip).prot.c = 4
      ∧ ¬ ((437 : Int) < ((busy.sensor .dump).trip : Int) - 40)
      ∧ (busy.prot.pending.get .stallExhaust = true ∧ busy.prot.levels.get .stallExhaust = busy.prot.c)
      ∧ busy.prot.Sound
      ∧ (∀ x, ready.prot.pending.get x = true → ready.prot.levels.get x ≤ 0)
      ∧ (let q := (busy.makePending .trip).prot.pending.set .trip false
         q.get .stallExhaust = true ∧ (0#16).toNat < busy.prot.levels.get .stallExhaust
          ∧ busy.prot.levels.get .stallExhaust < 4
          ∧ (∀ y, q.get y = true → busy.prot.levels.get y ≤ busy.prot.levels.get .stallExhaust)
          ∧ ∀ y, sourceNumber y < sourceNumber .stallExhaust → q.get y = true →
              busy.prot.levels.get y ≠ busy.prot.levels.get .stallExhaust) := by
  refine ⟨by decide, given_executes _ _, fun _ => given_executes _ _, by decide, by decide, by decide, by decide,
    by decide, by decide, busy_protection, ?_, by decide, by decide, by decide, ?_, ?_⟩
  · intro x; cases x <;> decide
  · intro y; cases y <;> decide
  · intro y; cases y <;> decide

/-! ### Witnesses: sensors, light and fans -/

def curveWords (x : Fan) (o : Orientation) (table : List Breakpoint) : List Word :=
  fanWord x :: BitVec.ofNat 16 (orientationCode o)
    :: table.flatMap (fun b => [BitVec.ofInt 16 b.t, BitVec.ofInt 16 b.value])

/-- A curve from −160 to 600 that rises from 0 to 1000; the same read from the top falls. -/
def widestCurve : List Breakpoint := [⟨-160, 0⟩, ⟨0, 0⟩, ⟨100, 500⟩, ⟨200, 500⟩, ⟨300, 900⟩, ⟨600, 1000⟩]

def highestCriteria : List Int := (List.range 16).map fun i => -160 + 10 * (i : Int)

theorem witness_ThermalSettingsAreStored :
    (∀ w : Word, (given ready 0x42#8 [w]).Executes (msg 0x42#8 [w]) 0x42#8 [w])
      ∧ (∀ w : Word, (given ready 0x45#8 [w]).Executes (msg 0x45#8 [w]) 0x45#8 [w])
      ∧ 1#16 = flagWord true ∧ 1 < (2#16).toNat
      ∧ (given ready 0x41#8 (highestCriteria.map (BitVec.ofInt 16))).Executes
          (msg 0x41#8 (highestCriteria.map (BitVec.ofInt 16))) 0x41#8 (highestCriteria.map (BitVec.ofInt 16))
      ∧ highestCriteria.length = 16 ∧ (∀ x ∈ highestCriteria, -160 ≤ x ∧ x ≤ 600) ∧ rising highestCriteria = true
      ∧ rising (List.replicate 16 600) = false ∧ (∀ x ∈ List.replicate 16 (600 : Int), -160 ≤ x ∧ x ≤ 600)
      ∧ (∀ a b c d : Word, (given ready 0x40#8 [a, b, c, d]).Executes (msg 0x40#8 [a, b, c, d]) 0x40#8 [a, b, c, d])
      ∧ (15#16).toNat ≤ 15 ∧ (600#16).toNat ≤ 600 ∧ 15 < (16#16).toNat ∧ 600 < (601#16).toNat
      ∧ (∀ p, (given ready 0x43#8 p).Executes (msg 0x43#8 p) 0x43#8 p)
      ∧ widestCurve.length = 6
      ∧ (∀ b ∈ widestCurve, -160 ≤ b.t ∧ b.t ≤ 600 ∧ 0 ≤ b.value ∧ b.value ≤ 1000)
      ∧ (rising (widestCurve.map (·.t)) = true ∧ nonFalling (widestCurve.map (·.value)) = true)
      ∧ ¬ (rising (widestCurve.reverse.map (·.t)) = true ∧ nonFalling (widestCurve.reverse.map (·.value)) = true)
      ∧ (∀ p, (given ready 0x44#8 p).Executes (msg 0x44#8 p) 0x44#8 p)
      ∧ (1000#16).toNat ≤ 1000 ∧ (20000#16).toNat ≤ 20000 ∧ 1000 < (1001#16).toNat ∧ 20000 < (20001#16).toNat := by
  refine ⟨fun _ => given_executes _ _, fun _ => given_executes _ _, rfl, by decide, given_executes _ _, by decide,
    by decide, by decide, by decide, by decide, fun _ _ _ _ => given_executes _ _, by decide, by decide, by decide,
    by decide, fun _ => given_executes _ _, by decide, by decide, by decide, by decide,
    fun _ => given_executes _ _, by decide, by decide, by decide, by decide⟩

/-- Samples at and beyond both ends of −160..600; a reading that reaches the threshold, one that reaches the
trip, one below both. -/
theorem witness_WindowEndJudgesTheSample :
    busy.hold.held = false ∧ (-160 ≤ (600#16).toInt ∧ (600#16).toInt ≤ 600)
      ∧ (-160 ≤ (BitVec.ofInt 16 (-160)).toInt) ∧ (BitVec.ofInt 16 (-161)).toInt < -160 ∧ 600 < (601#16).toInt
      ∧ (busy.sensor .dump).high = false ∧ (busy.sensors.criteria.getD (busy.sensor .dump).index 0) ≤ 437
      ∧ ((busy.sensor .dump).trip : Int) ≤ 437 + (461 - 437 + 4) / 8
      ∧ (437 + (440 - 437 + 4) / 8 : Int) < (busy.sensor .dump).trip
      ∧ (212 : Int) < ready.sensors.criteria.getD (ready.sensor .laser).index 0
      ∧ (212 : Int) < (ready.sensor .laser).trip
      ∧ (busy.makePending .sensorFault).prot.pending.get .sensorFault = true := by
  decide

/-- F IDLE at the focus base, with upkeep ON and a flat compensation. -/
def upkept (compensation applied : Int) : State :=
  { idleAt ready .f 2000 with focus :=
    ⟨true, (List.range 8).map fun i => ⟨40 * (i : Int), compensation⟩, applied, applied, 2000, none⟩ }

/-- A LENS window end that makes no source pending: upkeep is due at a difference of 2 and not at 1; its target
differs from F's position, and is equal to it where the focus already stands there. -/
theorem witness_upkeep_is_due :
    (100 : Int) < ready.sensors.criteria.getD (ready.sensor .lens).index 0 ∧ (100 : Int) < (ready.sensor .lens).trip
      ∧ (ready.sensor .lens).reading = none ∧ (100#16).toInt = 100
      ∧ (let s := upkept 2 0
         let d := interpolate s.focus.table 100
         s.focus.upkeep = true ∧ (s.axis .f).phase = .idle ∧ (s.axis .f).locked = false
          ∧ (∀ a m, (s.axis a).phase.record = some m → m.owner ≠ .placement) ∧ 2 ≤ |d - s.focus.applied|
          ∧ (s.axis .f).pos ≠ (max 0 (min ((s.axis .f).cal.max : Int) (s.focus.base + d))).toNat
          ∧ (s.pins.get .f).driverFault = false)
      ∧ ¬ (2 ≤ |interpolate (upkept 1 0).focus.table 100 - (upkept 1 0).focus.applied|)
      ∧ (let s := upkept 0 2
         let d := interpolate s.focus.table 100
         2 ≤ |d - s.focus.applied|
          ∧ (s.axis .f).pos = (max 0 (min ((s.axis .f).cal.max : Int) (s.focus.base + d))).toNat) := by
  refine ⟨by decide, by decide, rfl, by decide, ⟨rfl, rfl, by decide, ?_, by decide, by decide, rfl⟩, by decide, by decide⟩
  intro a m h
  cases a <;> cases h

/-- A fan in each state, with the counts at the boundaries of the table of R137 and R140. -/
def fansAt (u : FanUnit) : State := ready.setFan .light u

theorem witness_FanUpdateMovesTheFans :
    ready.hold.held = false ∧ ready.fans.reReport = false
      ∧ (∀ x, (ready.fan x).state = .running →
          (ready.fan x).record.stallSpeed ≤ ((run .fanUpdate ready).fan x).speed ∨ (ready.fan x).stallRun < 2)
      ∧ (ready.fan .light).state = .stopped
      ∧ (let s := fansAt { powerOnFan .light with state := .running, duty := 600, stallRun := 2 }
         (s.fan .light).state = .running
          ∧ ((run .fanUpdate s).fan .light).speed < (s.fan .light).record.stallSpeed ∧ 2 ≤ (s.fan .light).stallRun)
      ∧ (let s := fansAt { powerOnFan .light with state := .spinup, duty := 1000, spin := 5 }
         (s.fan .light).state = .spinup ∧ ((run .fanUpdate s).fan .light).lastDemand ≠ 0
          ∧ 5 ≤ (s.fan .light).spin)
      ∧ (let s := fansAt { powerOnFan .light with state := .spinup, duty := 1000, spin := 4 }
         (s.fan .light).spin < 5)
      ∧ (let s := fansAt { powerOnFan .light with state := .stalled, duty := 600, recovery := 2, count := 5 }
         (s.fan .light).state = .stalled
          ∧ (s.fan .light).record.stallSpeed ≤ ((run .fanUpdate s).fan .light).speed ∧ 2 ≤ (s.fan .light).recovery)
      ∧ (let s := fansAt { powerOnFan .light with state := .stalled, duty := 600, recovery := 1, count := 4 }
         ((run .fanUpdate s).fan .light).speed < (s.fan .light).record.stallSpeed ∧ (s.fan .light).recovery < 2) := by
  refine ⟨rfl, rfl, ?_, by decide, by decide, by decide, by decide, by decide, by decide⟩
  intro x h
  cases x <;> cases h

/-- A stalled fan at the first update after a SOFT_RESET, still slow. -/
theorem witness_stall_is_reported_again :
    let s := run .softReset (given (fansAt { powerOnFan .light with state := .stalled, duty := 600 }) 0x06#8 [])
    s.hold.held = false ∧ s.fans.reReport = true ∧ (s.fan .light).state = .stalled
      ∧ ((run .fanUpdate s).fan .light).speed < (s.fan .light).record.stallSpeed := by decide

/-- A demand of 0 needs a curve that is 0, a cool sensor, no floor and no feed-forward. -/
theorem witness_fan_demand_can_be_zero :
    let s := (fansAt { powerOnFan .light with record := { defaultFanRecord .light with floorSet := widestCurve } }).setSensor
      .laser { ready.sensor .laser with reading := some 0 }
    ((run .fanUpdate s).fan .light).lastDemand = 0 := by
  decide

/-! ### Witnesses: settings of the picture and the lens -/

def widestCal : Cal := ⟨65000, 255, .lower, -4096, 65000, 3, 60, 255⟩

def calPayload (a : Axis) (cal : Cal) : List Word :=
  [axisWord a, BitVec.ofNat 16 cal.max, BitVec.ofNat 16 cal.backlash, BitVec.ofNat 16 (dirCode cal.approach),
    BitVec.ofInt 16 cal.pps, BitVec.ofNat 16 cal.reference, BitVec.ofNat 16 cal.homingProfile,
    BitVec.ofNat 16 cal.timeout, BitVec.ofNat 16 cal.slipTolerance]

def focusPoints : List Breakpoint :=
  [⟨-160, -500⟩, ⟨0, 500⟩, ⟨100, 0⟩, ⟨200, 0⟩, ⟨300, 0⟩, ⟨400, 0⟩, ⟨500, 0⟩, ⟨600, 500⟩]

theorem witness_ReadySettingsAreStored :
    ready.startup.part ≠ .starting
      ∧ (∀ kind p, (given ready kind p).Executes (msg kind p) kind p)
      ∧ (∀ kind p, (given busy kind p).Executes (msg kind p) kind p)
      ∧ (∀ a, (ready.axis a).phase.inMove = false ∧ (ready.axis a).phase.isHoming = false)
      ∧ ((busy.axis .v).phase.inMove = true ∨ (busy.axis .v).phase.isHoming = true)
      ∧ focusPoints.length = 8
      ∧ (∀ b ∈ focusPoints, -160 ≤ b.t ∧ b.t ≤ 600 ∧ -500 ≤ b.value ∧ b.value ≤ 500)
      ∧ rising (focusPoints.map (·.t)) = true ∧ rising (focusPoints.reverse.map (·.t)) = false
      ∧ ((3#16).toNat ≤ 3 ∧ 100 ≤ (100#16).toNat ∧ (100#16).toNat ≤ 2000 ∧ (100#16).toNat ≤ (4000#16).toNat
          ∧ (4000#16).toNat ≤ 4000 ∧ (2000#16).toNat ≤ 2000)
      ∧ ¬ ((4#16).toNat ≤ 3)
      ∧ widestCal.Sound .v ∧ -4096 ≤ widestCal.pps ∧ widestCal.pps ≤ 4096 ∧ widestCal.homingProfile ≤ 3
      ∧ 1 ≤ widestCal.timeout ∧ widestCal.timeout ≤ 60 ∧ widestCal.slipTolerance ≤ 255
      ∧ (ready.axis .v).phase = .unhomed
      ∧ ((idleAt ready .v 101).axis .v).phase = .idle ∧ 100 < ((idleAt ready .v 101).axis .v).pos
      ∧ ((idleAt ready .v 65000).axis .v).pos ≤ widestCal.max
      ∧ (∃ w : Word, [4#16] = [w] ∧ (if Instr.pictureMode = .pictureMode then 3 else 1) < w.toNat) := by
  refine ⟨by decide, fun _ _ => given_executes _ _, fun _ _ => given_executes _ _, by intro a; cases a <;> decide,
    by decide, by decide, by decide, by decide, by decide, by decide, by decide,
    ⟨by decide, by decide, by decide, by decide⟩, by decide, by decide, by decide, by decide, by decide, by decide,
    rfl, rfl, by decide, by decide, ⟨4#16, rfl, by decide⟩⟩

/-! ### Witnesses: axes -/

/-- V holding with its leg not run out, and V holding at the end of its last leg. -/
def holdingV (pos : Nat) : State := (idleAt ready .v pos).setPhase .v (.holding busyMove)

theorem witness_StopLockHoldAndResume :
    ready.startup.part ≠ .starting
      ∧ (∀ kind p, (given ready kind p).Executes (msg kind p) kind p)
      ∧ (busy.axis .v).phase = .moving busyMove ∧ (∀ m, (ready.axis .v).phase ≠ .moving m)
      ∧ ((ready.setAxis .v { ready.axis .v with hostLock := true }).axis .v).hostLock = true
      ∧ (ready.axis .v).hostLock = false ∧ (ready.axis .v).protLock = false
      ∧ (∀ m, (ready.axis .v).phase ≠ .holding m)
      ∧ ((holdingV 7199).axis .v).phase = .holding busyMove ∧ busyMove.leg = some ⟨7200, .raise⟩
      ∧ (⟨7200, .raise⟩ : Leg).rest 7199 ≠ 0 ∧ ((holdingV 7199).pins.get .v).driverFault = false
      ∧ (⟨7200, .raise⟩ : Leg).rest 7200 = 0 ∧ busyMove.current = busyMove.legs.length
      ∧ (let m := { busyMove with legs := [⟨7224, .raise⟩, ⟨7200, .lower⟩] }
         (((idleAt ready .v 7224).setPhase .v (.holding m)).axis .v).phase = .holding m
          ∧ m.leg = some ⟨7224, .raise⟩ ∧ (⟨7224, .raise⟩ : Leg).rest 7224 = 0 ∧ m.current < m.legs.length
          ∧ m.legs[m.current]? = some ⟨7200, .lower⟩)
      ∧ ∀ a, [3#16] ≠ [axisWord a] := by
  refine ⟨by decide, fun _ _ => given_executes _ _, rfl, (by intro m h; cases h), rfl, rfl, rfl,
    (by intro m h; cases h), rfl, rfl, by decide, rfl, by decide, by decide, by decide, ?_⟩
  intro a
  cases a <;> decide

theorem witness_EndsOfMovesAreTold :
    Axis.h ≠ Axis.v ∧ busy.place.state = .tracking ∧ busy.place.outH = false
      ∧ ({ busy.place with outV := false, outH := true } : Placement).outV = false := by
  decide

theorem witness_MoveAndReturnBeginMoves :
    ready.startup.part ≠ .starting
      ∧ (∀ s kind p, s.hold.held = false → (given s kind p).Executes (msg kind p) kind p)
      ∧ 3 < (4#16).toNat ∧ (3#16).toNat ≤ 3
      ∧ (ready.axis .v).phase = .unhomed ∧ (busy.axis .v).phase ≠ .idle
      ∧ (let u := (idleAt ready .v 6000 [5]).axis .v
         ¬ (u.phase = .unhomed ∨ u.phase = .fault ∨ u.phase.isHoming = true)
          ∧ ¬ (u.hostLock = true ∨ u.protLock = true) ∧ u.phase = .idle
          ∧ u.pos ≠ min (12000#16).toNat u.cal.max ∧ u.pos = min (6000#16).toNat u.cal.max
          ∧ u.cal.max < (12001#16).toNat ∧ u.ring = 5 :: [] ∧ u.pos ≠ 5)
      ∧ ((idleAt ready .v 5 [5]).axis .v).pos = 5 ∧ ((idleAt ready .v 5).axis .v).ring = []
      ∧ (ready.pins.get .v).driverFault = false
      ∧ ((ready.setPin .v ⟨false, true⟩).pins.get .v).driverFault = true
      ∧ (∀ b x y, ([] : List Word) ≠ [axisWord b, x, y]) ∧ (12000 ≠ 0 ∧ 0 ≤ 12000) := by
  refine ⟨by decide, fun _ _ _ h => given_executes _ _ h, by decide, by decide, rfl, by decide, by decide, rfl, rfl,
    rfl, rfl, by simp, by decide⟩

theorem witness_HomeStartsEveryNamedAxis :
    ready.startup.part ≠ .starting ∧ (∀ p, (given ready 0x15#8 p).Executes (msg 0x15#8 p) 0x15#8 p)
      ∧ ([] : List Word).length ≠ 1 ∧ (0#16).toNat = 0 ∧ 7 < (8#16).toNat
      ∧ 1 ≤ (7#16).toNat ∧ (7#16).toNat ≤ 7
      ∧ (∀ a, (7#16).getLsbD (axisNumber a) = true →
          (ready.axis a).hostLock = false ∧ (ready.axis a).protLock = false
          ∧ (ready.axis a).phase.inMove = false ∧ (ready.axis a).phase.isHoming = false
          ∧ (ready.pins.get a).driverFault = false)
      ∧ ((7#16).getLsbD (axisNumber .v) = true ∧ (busy.axis .v).phase.inMove = true)
      ∧ ((ready.setAxis .v { ready.axis .v with hostLock := true }).axis .v).hostLock = true := by
  refine ⟨by decide, fun _ => given_executes _ _, by decide, by decide, by decide, by decide, by decide, ?_, by decide,
    rfl⟩
  intro a _
  cases a <;> decide

/-- V on the last step of a leg, with and without a second leg; stopping with steps left and with one; homing
below its bound, and decelerating. -/
theorem witness_AxisStepFollowsTheRateLaw :
    ready.hold.held = false
      ∧ (busy.axis .v).phase = .moving busyMove ∧ busyMove.leg = some ⟨7200, .raise⟩
      ∧ (⟨7200, .raise⟩ : Leg).rest 6003 ≠ 0 ∧ (⟨7200, .raise⟩ : Leg).rest 6003 ≠ 1
      ∧ (⟨7200, .raise⟩ : Leg).rest 7199 = 1 ∧ busyMove.current = busyMove.legs.length
      ∧ (movedV.axis .v).phase.record.map (fun m => (m.current, m.legs.length, m.legs[m.current]?))
          = some (1, 2, some ⟨7200, .lower⟩)
      ∧ ((busy.setPhase .v (.stopping busyMove (.retarget 5) 1)).axis .v).phase = .stopping busyMove (.retarget 5) 1
      ∧ (busy.axis .v).locked = false ∧ 2 ≤ 2
      ∧ (let run : HomingRun := ⟨.seek, 13200, ⟨300, 300, 0⟩, 13199, 0, none⟩
         run.halt = none ∧ run.steps < run.bound)
      ∧ (ready.axis .v).phase = .unhomed := by
  refine ⟨rfl, rfl, rfl, by decide, by decide, by decide, by decide, by decide, rfl, rfl, by decide, by decide, rfl⟩

/-- V moving at 8 (the tolerance) and at 9; homing in both phases, and decelerating. -/
def slipping (pos : Nat) : State := busy.setAxis .v { busy.axis .v with pos := pos }

def homingRun (p : HomingPhase) (halt : Option (HaltReason × Nat)) : HomingRun :=
  ⟨p, 280, ⟨300, 300, 0⟩, 6, 0, halt⟩

theorem witness_LimitSwitchStopsOrHomes :
    busy.hold.held = false ∧ ((slipping 8).axis .v).phase.record = some busyMove
      ∧ (∀ q, ((slipping 8).axis .v).phase ≠ .holding q)
      ∧ ((slipping 8).axis .v).pos ≤ ((slipping 8).axis .v).cal.slipTolerance
      ∧ ((slipping 9).axis .v).cal.slipTolerance < ((slipping 9).axis .v).pos
      ∧ (∀ p halt, ((ready.setPhase .v (.homing (homingRun p halt))).axis .v).phase = .homing (homingRun p halt))
      ∧ (homingRun .seek none).phase = .seek ∧ (homingRun .backoff none).phase = .backoff
      ∧ (homingRun .seek (some (.host, 3))).halt = some (.host, 3)
      ∧ (ready.pins.get .v).driverFault = false ∧ (ready.axis .v).phase = .unhomed
      ∧ (∀ run, (ready.axis .v).phase ≠ .homing run) :=
  ⟨rfl, rfl, (by intro q h; cases h), by decide, by decide, fun _ _ => rfl, rfl, rfl, rfl, rfl, rfl,
    (by intro r h; cases h)⟩

theorem witness_AxisFaultsTakeEffectAtOnce :
    busy.hold.held = false ∧ (busy.axis .v).phase = .moving busyMove ∧ (ready.axis .f).phase ≠ .fault
      ∧ ((ready.setPhase .v .fault).axis .v).phase = .fault
      ∧ ((ready.setPhase .f (.homing (homingRun .backoff none))).axis .f).phase.isHoming = true
      ∧ (homingRun .backoff none).halt = none ∧ (homingRun .backoff none).steps < (homingRun .backoff none).bound
      ∧ (soughtV.axis .v).phase = .homing ⟨.seek, 13200, ⟨300, 300, 0⟩, 13200, 0, none⟩ :=
  ⟨rfl, rfl, by decide, rfl, rfl, rfl, by decide, rfl⟩

theorem witness_PlaceAsksBothAxes :
    handover.startup.part ≠ .starting ∧ (∀ p, (given handover 0x16#8 p).Executes (msg 0x16#8 p) 0x16#8 p)
      ∧ ([] : List Word).length ≠ 2
      ∧ (-3840 ≤ (BitVec.ofInt 16 (-3840)).toInt ∧ (3840#16).toInt ≤ 3840 ∧ (2160#16).toInt ≤ 2160)
      ∧ ¬ ((3841#16).toInt ≤ 3840)
      ∧ ((handover.axis .v).homed = true ∧ (handover.axis .h).homed = true)
      ∧ ¬ ((ready.axis .v).homed = true ∧ (ready.axis .h).homed = true)
      ∧ ((handover.axis .v).locked = false ∧ (handover.axis .h).locked = false)
      ∧ ((handover.axis .v).phase.placeable = true ∧ (handover.axis .h).phase.placeable = true)
      ∧ ¬ ((movedV.axis .v).phase.placeable = true)
      ∧ ((handover.pins.get .v).driverFault = false ∧ (handover.pins.get .h).driverFault = false)
      ∧ (busy.axis .v).phase.placeable = true ∧ busyMove.lastIndex ≠ 0
      ∧ (Phase.stopping busyMove .holding 2).placeable = true := by
  refine ⟨by decide, fun _ => given_executes _ _, by decide, by decide, by decide, by decide, by decide, by decide,
    by decide, by decide, by decide, by decide, by decide, by decide⟩

/-- A driver fault input asserted where a leg begins: RESUME on the rest of a leg and on the next leg, a second leg
and a retargeted move after a step, BACKOFF after SEEK, HOME, the upkeep move, and V asked by PLACE. -/
theorem witness_leg_begins_with_the_fault :
    (∀ s a, ((faulty s a).pins.get a).driverFault = true) ∧ (∀ s a b, (faulty s a).axis b = s.axis b)
      ∧ (∀ s a, (faulty s a).hold = s.hold ∧ (faulty s a).startup = s.startup)
      ∧ ((holdingV 7199).axis .v).phase = .holding busyMove ∧ (⟨7200, .raise⟩ : Leg).rest 7199 ≠ 0
      ∧ (movedV.axis .v).phase.record.map (fun m => (m.current, m.legs.length)) = some (1, 2)
      ∧ (let s := (busy.setAxis .v { busy.axis .v with pos := 7198, phase := .stopping busyMove (.retarget 5) 1 })
         (s.axis .v).phase = .stopping busyMove (.retarget 5) 1 ∧ busyMove.leg = some ⟨7200, .raise⟩
          ∧ (⟨7200, .raise⟩ : Leg).rest 7198 ≠ 0 ∧ 7198 + 1 ≠ 5 ∧ (s.axis .v).locked = false)
      ∧ (homingRun .seek none).halt = none ∧ (homingRun .seek none).phase = .seek
      ∧ (∀ a, (ready.axis a).phase.inMove = false ∧ (ready.axis a).phase.isHoming = false
          ∧ (ready.axis a).hostLock = false ∧ (ready.axis a).protLock = false)
      ∧ (let s := upkept 2 0
         let d := interpolate s.focus.table 100
         (s.axis .f).pos ≠ (max 0 (min ((s.axis .f).cal.max : Int) (s.focus.base + d))).toNat)
      ∧ (handover.axis .v).phase = .idle ∧ (handover.axis .v).locked = false
      ∧ (handover.axis .v).cal.lensTarget 300 ≠ (handover.axis .v).pos := by
  refine ⟨?_, fun _ _ _ => rfl, fun _ _ => ⟨rfl, rfl⟩, rfl, by decide, by decide,
    ⟨rfl, rfl, by decide, by decide, by decide⟩, rfl, rfl, ?_, by decide, by decide, by decide, by decide⟩
  · intro s a; cases a <;> rfl
  · intro a; cases a <;> decide

/-- A closure on a placement move within and beyond the slip tolerance, with LENS_FAULT locking no other axis. -/
theorem witness_closure_on_a_placement_move :
    busyMove.owner = .placement ∧ (slipping 8).place.state = .tracking
      ∧ ∀ b, b ≠ Axis.v → ((run (.limitSwitchClose .v) (slipping 9)).axis b).protLock = false := by
  refine ⟨rfl, rfl, fun b _ => ?_⟩
  cases b <;> decide

/-! ### Witnesses: tables and generation -/

/-- The load bank open, with a bad line 7 or all DARK. -/
def loading (b : Bank) : State :=
  { ready with table := { ready.table.setLoadBank b with loadOpen := true } }

def badBank : Bank := ⟨⟨640, 360⟩, .loaded, [(7, ⟨2, 0, 0, 0, 0, 0, 0⟩)]⟩

theorem witness_TableMessagesLoadTheOtherBank :
    ready.startup.part ≠ .starting
      ∧ (∀ s kind p, s.hold.held = false → (given s kind p).Executes (msg kind p) kind p)
      ∧ (640 ≤ (3840#16).toNat ∧ (3840#16).toNat ≤ 3840 ∧ 360 ≤ (360#16).toNat ∧ (360#16).toNat ≤ 2160)
      ∧ ¬ (640 ≤ (639#16).toNat)
      ∧ (committing .any).table.commit.isSome = true
      ∧ ¬ (ready.table.commit.isSome = true ∨ ready.gen.running.isSome = true)
      ∧ (∀ r ∈ List.replicate 5 (List.replicate 11 (0#16)), r.length = 11)
      ∧ (2155#16).toNat + (List.replicate 5 (List.replicate 11 (0#16))).length ≤ 2160
      ∧ ready.table.loadOpen = false ∧ (loading badBank).table.loadOpen = true ∧ bankWf (loading badBank).table.loadBank
      ∧ (bankRecord (loading badBank).table.loadBank 7).failure = some .kind
      ∧ (∀ k, k < 7 → (bankRecord (loading badBank).table.loadBank k).failure = none)
      ∧ (∀ j, (bankRecord (loading resetBank).table.loadBank j).failure = none)
      ∧ bankWf (loading resetBank).table.loadBank
      ∧ ([] : List Word).length % 11 ≠ 1 ∧ ([] : List Word).length ≠ 2
      ∧ ∀ cond : ParityCond, [3#16] ≠ [BitVec.ofNat 16 (condCode cond)] := by
  refine ⟨by decide, fun _ _ _ h => given_executes _ _ h, by decide, by decide, rfl, by decide, by decide, by decide,
    rfl, rfl, by decide, by decide, by decide, fun j => rfl, by decide, by decide, by decide, ?_⟩
  intro cond
  cases cond <;> decide

/-- The smallest size, the corners of the whole panel and corners in no order; a line too narrow, and a line
whose record fails. -/
def panelCorners : CornerSet := ⟨⟨0, 0⟩, ⟨3839, 0⟩, ⟨0, 2159⟩, ⟨3839, 2159⟩⟩

def generating (c : CornerSet) (z : Size) : State := { ready with gen := ⟨some c, some z, .none⟩ }

theorem witness_GenerationFillsTheLoadBank :
    ready.startup.part ≠ .starting
      ∧ (∀ s kind p, s.hold.held = false → (given s kind p).Executes (msg kind p) kind p)
      ∧ (∀ q ∈ [panelCorners.tl, panelCorners.tr, panelCorners.bl, panelCorners.br],
          0 ≤ q.x ∧ q.x ≤ 3839 ∧ 0 ≤ q.y ∧ q.y ≤ 2159)
      ∧ (panelCorners.tl.x < panelCorners.tr.x ∧ panelCorners.bl.x < panelCorners.br.x
          ∧ panelCorners.tl.y < panelCorners.bl.y ∧ panelCorners.tr.y < panelCorners.br.y)
      ∧ (∀ z, ready.link.lastSize = some z → z.inFormats = false)
      ∧ (linked 0).link.lastSize = some ⟨640, 360⟩ ∧ (⟨640, 360⟩ : Size).inFormats = true
      ∧ (∀ c : CornerSet, ([] : List Word) ≠ [c.tl, c.tr, c.bl, c.br].flatMap fun q =>
          [BitVec.ofInt 16 q.x, BitVec.ofInt 16 q.y])
      ∧ (generating panelCorners ⟨640, 360⟩).hold.held = false
      ∧ (generating panelCorners ⟨640, 360⟩).gen.running = some ⟨640, 360⟩
      ∧ (generating panelCorners ⟨640, 360⟩).gen.corners = some panelCorners
      ∧ generatedLine ⟨⟨0, 0⟩, ⟨63, 0⟩, ⟨0, 2159⟩, ⟨3839, 2159⟩⟩ ⟨640, 360⟩ 0 = none
      ∧ (generatedLine panelCorners ⟨640, 360⟩ 2159).map (·.failure) = some none := by
  refine ⟨by decide, fun _ _ _ h => given_executes _ _ h, by decide, by decide, (by intro z h; cases h), rfl, by decide,
    (by intro c h; cases h), rfl, rfl, rfl, by decide, by decide⟩

/-- Corners two rows high: every line passes the width test and its record the validation. With a sloping top,
line 0 fails a test. -/
theorem witness_generation_succeeds :
    (generate ⟨⟨0, 0⟩, ⟨3839, 0⟩, ⟨0, 1⟩, ⟨3839, 1⟩⟩ ⟨640, 360⟩).2 = .success := by decide +kernel

theorem witness_generation_fails_a_test :
    (generate ⟨⟨0, 0⟩, ⟨3839, 1⟩, ⟨0, 2⟩, ⟨3839, 2⟩⟩ ⟨3840, 2160⟩).2 = .failed (.test .range) 0 := by
  decide +kernel

end Sys2Proof.Tests
end

/-! # The picture path: the slots, the frame in flight, and what turns it black

The lemmas about the link receiver's roles, the output frame and the light of its lines come first; the statements
they settle follow. -/

namespace Sys2Proof.Machine

/-! ### The two slots and their roles (R1 to R3) -/

theorem otherSlot_ne (i : SlotId) : otherSlot i ≠ i := by cases i <;> decide

theorem ne_otherSlot (i : SlotId) : i ≠ otherSlot i := (otherSlot_ne i).symm

@[simp] theorem Link.setSlot_readSlot (l : Link) (i : SlotId) (r : SlotRecord) :
    (l.setSlot i r).readSlot = l.readSlot := by cases i <;> rfl

@[simp] theorem Link.setSlot_inputSlot (l : Link) (i : SlotId) (r : SlotRecord) :
    (l.setSlot i r).inputSlot = l.inputSlot := by cases i <;> rfl

/-- Writing a slot's own record back changes nothing. -/
theorem Link.setSlot_slotRecord (l : Link) (i : SlotId) : l.setSlot i (l.slotRecord i) = l := by cases i <;> rfl

/-- The four conditions of R2, written out. -/
theorem SlotRecord.whole_iff (r : SlotRecord) : r.whole = true ↔
    r.opened = true ∧ r.size.inFormats = true ∧ r.counted = r.size.h ∧ r.spoiled = false := by
  simp [SlotRecord.whole, and_assoc]

/-- A source within the fixed formats fits the frame memory (spec 00). -/
theorem Size.inFormats_le {z : Size} (h : z.inFormats = true) :
    z.w ≤ Config.panelColumns ∧ z.h ≤ Config.panelRows := by
  simp only [Size.inFormats, Bool.and_eq_true, decide_eq_true_eq] at h
  obtain ⟨⟨⟨_, hw⟩, _⟩, hh⟩ := h
  exact ⟨hw, hh⟩

theorem Link.judge_of_whole {l : Link} (h : (l.slotRecord l.inputSlot).whole = true) :
    l.judge = { l.setSlot l.inputSlot { l.slotRecord l.inputSlot with complete := true } with
      readSlot := some l.inputSlot, inputSlot := otherSlot l.inputSlot } := by
  simp [Link.judge, h]

theorem Link.judge_of_not_whole {l : Link} (h : (l.slotRecord l.inputSlot).whole = false) :
    l.judge = l.setSlot l.inputSlot { l.slotRecord l.inputSlot with complete := false } := by
  simp [Link.judge, h]

@[simp] theorem Link.openFrame_readSlot (l : Link) (z : Size) (ready : Bool) :
    (l.openFrame z ready).readSlot = l.readSlot := l.setSlot_readSlot _ _

@[simp] theorem Link.openFrame_inputSlot (l : Link) (z : Size) (ready : Bool) :
    (l.openFrame z ready).inputSlot = l.inputSlot := l.setSlot_inputSlot _ _

@[simp] theorem Link.openFrame_slotRecord_same (l : Link) (z : Size) (ready : Bool) :
    (l.openFrame z ready).slotRecord l.inputSlot = ⟨z, false, ready, false, 0⟩ :=
  l.slotRecord_setSlot_same _ _

theorem Link.openFrame_slotRecord_ne (l : Link) (z : Size) (ready : Bool) {i : SlotId} (h : i ≠ l.inputSlot) :
    (l.openFrame z ready).slotRecord i = l.slotRecord i := l.slotRecord_setSlot_ne _ h

/-- The slot that is read is not the input slot, and can be read (R2). -/
def Link.RolesSound (l : Link) : Prop :=
  ∀ i, l.readSlot = some i → l.inputSlot = otherSlot i ∧ (l.slotRecord i).readable

theorem Link.RolesSound.latch {l : Link} (h : l.RolesSound) (parity : Parity) (z : Size) :
    (l.latch parity z).RolesSound := h

/-- Given up, no slot is read (R3). -/
theorem Link.giveUp_rolesSound (l : Link) : l.giveUp.RolesSound := fun _ h => nomatch h

/-- The judgement makes a whole input slot the read slot, and else leaves the read slot (R2). -/
theorem Link.RolesSound.judge {l : Link} (h : l.RolesSound) : l.judge.RolesSound := by
  cases hw : (l.slotRecord l.inputSlot).whole with
  | true =>
    rw [Link.judge_of_whole hw]
    rintro i ⟨rfl⟩
    obtain ⟨_, formats, _, _⟩ := (SlotRecord.whole_iff _).1 hw
    refine ⟨rfl, ?_⟩
    change ((l.setSlot l.inputSlot _).slotRecord l.inputSlot).readable
    rw [Link.slotRecord_setSlot_same]
    exact ⟨rfl, formats⟩
  | false =>
    rw [Link.judge_of_not_whole hw]
    intro i hi
    rw [Link.setSlot_readSlot] at hi
    obtain ⟨role, readable⟩ := h i hi
    rw [Link.setSlot_inputSlot, Link.slotRecord_setSlot_ne _ _ (by rw [role]; exact ne_otherSlot i)]
    exact ⟨role, readable⟩

/-- Opening a frame writes the input slot's record alone (R1). -/
theorem Link.RolesSound.openFrame {l : Link} (h : l.RolesSound) (z : Size) (ready : Bool) :
    (l.openFrame z ready).RolesSound := by
  intro i hi
  rw [Link.openFrame_readSlot] at hi
  obtain ⟨role, readable⟩ := h i hi
  rw [Link.openFrame_inputSlot, Link.openFrame_slotRecord_ne _ _ _ (by rw [role]; exact ne_otherSlot i)]
  exact ⟨role, readable⟩

/-- The link receiver's part of a frame start: the old input slot judged, after a loss with both slots given up,
and the new frame opened. -/
theorem State.linkFrameStart_link (s : State) (parity : Parity) (z : Size) :
    (s.linkFrameStart parity z).link =
      ((if s.link.present then s.link.latch parity z else (s.link.latch parity z).giveUp).judge).openFrame z
        (s.startup.part == .ready) := by
  unfold State.linkFrameStart
  simp only
  split <;> rfl

theorem State.linkFrameStart_rolesSound {s : State} (h : s.link.RolesSound) (parity : Parity) (z : Size) :
    (s.linkFrameStart parity z).link.RolesSound := by
  rw [State.linkFrameStart_link]
  refine Link.RolesSound.openFrame (Link.RolesSound.judge ?_) _ _
  split
  · exact h.latch _ _
  · exact Link.giveUp_rolesSound _

/-- `m` is `l` but for counts and the input slot's record: the roles and the slot that is read stay. -/
structure Link.KeepsRead (l m : Link) : Prop where
  readSlot : m.readSlot = l.readSlot := by rfl
  inputSlot : m.inputSlot = l.inputSlot := by rfl
  others : ∀ i, i ≠ l.inputSlot → m.slotRecord i = l.slotRecord i

theorem Link.KeepsRead.refl (l : Link) : l.KeepsRead l := ⟨rfl, rfl, fun _ _ => rfl⟩

theorem Link.keepsRead_setSlot (l : Link) (r : SlotRecord) : l.KeepsRead (l.setSlot l.inputSlot r) :=
  ⟨l.setSlot_readSlot _ _, l.setSlot_inputSlot _ _, fun _ h => l.slotRecord_setSlot_ne r h⟩

/-- The read slot's record is kept, since the input slot is the other one. -/
theorem Link.KeepsRead.record {l m : Link} (h : l.KeepsRead m) (hl : l.RolesSound) {i : SlotId}
    (hi : l.readSlot = some i) : m.slotRecord i = l.slotRecord i :=
  h.others i (by rw [(hl i hi).1]; exact ne_otherSlot i)

theorem Link.KeepsRead.rolesSound {l m : Link} (h : l.KeepsRead m) (hl : l.RolesSound) : m.RolesSound := by
  intro i hi
  rw [h.readSlot] at hi
  rw [h.inputSlot, h.record hl hi]
  exact hl i hi

/-! ### What a property of the picture path has to survive -/

/-- Nothing that the picture, its mute causes, the light limit and the protection lock rest on is another in `t`. -/
structure State.Still (s t : State) : Prop where
  link : s.link.KeepsRead t.link := by exact .refl _
  mem : t.mem = s.mem := by rfl
  part : t.startup.part = s.startup.part := by rfl
  check : t.startup.check = s.startup.check := by rfl
  mutes : t.picture.mutes = s.picture.mutes := by rfl
  frame : t.picture.frame = s.picture.frame := by rfl
  lastLight : t.picture.lastLight = s.picture.lastLight := by rfl
  d : t.light.d = s.light.d := by rfl
  limit : t.light.limit = s.light.limit := by rfl
  floor : t.fans.floor = s.fans.floor := by rfl
  lifted : t.fans.capLifted = s.fans.capLifted := by rfl
  lock : ∀ a, (t.axis a).protLock = (s.axis a).protLock := by exact fun _ => rfl
  c : t.prot.c = s.prot.c := by rfl
  table : t.prot.table = s.prot.table := by rfl

/-- An axis update that leaves the axis's protection lock leaves every axis's. -/
theorem State.protLock_setAxis (s : State) {a : Axis} {u : AxisUnit} (h : u.protLock = (s.axis a).protLock)
    (b : Axis) : ((s.setAxis a u).axis b).protLock = (s.axis b).protLock := by
  by_cases hb : b = a
  · subst hb; simpa using h
  · rw [State.axis_setAxis_ne _ _ hb]

theorem State.still_setAxis (s : State) {a : Axis} {u : AxisUnit} (h : u.protLock = (s.axis a).protLock) :
    s.Still (s.setAxis a u) where
  lock := s.protLock_setAxis h

/-- `P` survives what is still, what ripples, and the commands that are neither. -/
structure State.PathKept (P : State → Prop) : Prop where
  still : ∀ {s t : State}, P s → s.Still t → P t
  ripple : ∀ {s t : State}, P s → s.Ripple t → P t
  powerOn : ∀ (s : State) cause h, P (s.powerOnValues cause h)
  checkEnds : ∀ s passed, P s → P (s.checkEnds passed)
  frameStart : ∀ s parity z, P s → P (s.inputFrameStart parity z)
  activeLine : ∀ s xs, P s → P (s.activeLine xs)
  linkLoss : ∀ s, P s → P s.linkLoss
  sendLine : ∀ s, P s → P s.sendLine
  closeFrame : ∀ s, P s → P s.closeFrame
  softReset : ∀ s, P s → P s.softReset
  lowerTo : ∀ s target, P s → P (s.lowerTo target)
  actions : ∀ (s : State) table, P s → P (if 1 ≤ s.prot.c ∧ s.prot.c ≤ 3 then
      State.deliver { s with prot := { s.prot with table := table } }
    else { s with prot := { s.prot with table := table } })

section PathKept

variable {P : State → Prop} (K : State.PathKept P)

include K

theorem State.PathKept.near {s t : State} (h : P s) (hn : s.Near t) : P t := K.ripple h hn.ripple

/-- The slot counts and the intake are still; a drop raises its flag (R162, R164). -/
theorem State.PathKept.blankingSlot {s : State} (h : P s) (words : List Word) : P (s.blankingSlot words) := by
  unfold State.blankingSlot
  simp only
  split
  · exact h
  · split
    · exact K.still h { link := { others := fun _ _ => rfl } }
    · exact K.still h { link := { others := fun _ _ => rfl } }
    · unfold State.arrive
      split
      · exact K.still h { link := { others := fun _ _ => rfl } }
      · exact K.still h { link := { others := fun _ _ => rfl } }

/-- The lines not yet sent, then the close (assumption 9). -/
theorem State.PathKept.endFrame {s : State} (h : P s) : P s.endFrame := by
  have lines : ∀ (n : Nat) (s : State), P s → P (State.sendLines n s) := by
    intro n
    induction n with
    | zero => exact fun _ h => h
    | succ n ih => exact fun s h => ih _ (K.sendLine s h)
  unfold State.endFrame
  split
  · exact K.closeFrame _ (lines _ _ h)
  · exact h

/-- A fan update reaches the light unit's period, the fans and what may ripple from a stall (R132). -/
theorem State.PathKept.fanUpdate {s : State} (h : P s) : P s.fanUpdate :=
  State.fanUpdate_keeps (P := P) (R := P) (fun _ h => K.still h {})
    (fun _ x h => State.judgeFan_keeps (fun _ _ _ h => K.still h {})
      (fun t y h => K.ripple h (t.ripple_makePending y)) x h)
    (fun _ h => K.still h {}) (fun _ _ h => K.still h {}) h

theorem State.PathKept.windowEnd {s : State} (h : P s) (x : Sensor) (sample : Int) : P (s.windowEnd x sample) :=
  State.windowEnd_keeps (fun _ h => K.still h {}) (fun t y h => K.ripple h (t.ripple_makePending y))
    (fun _ _ h => K.still h {}) (fun t _ h => K.ripple h t.ripple_startUpkeep) (fun _ h => K.still h {}) h

/-- The corner generator's end may turn the mode, and reaches nothing else of the picture (R50). -/
theorem State.PathKept.endGeneration {s : State} (h : P s) : P s.endGeneration := by
  unfold State.endGeneration
  split
  · simp only
    split <;> exact K.still h {}
  · exact h
  · exact h

theorem State.PathKept.setHostLock {s : State} (h : P s) (a : Axis) (on : Bool) : P (s.setHostLock a on) := by
  refine K.near ?_ (s.setHostLock_near a on)
  exact K.still h (s.still_setAxis rfl)

/-- Command by command. -/
theorem State.PathKept.kept : State.Kept P where
  weaken _ h := h
  queue _ _ h := K.still h {}
  ended _ _ _ _ h := K.still h {}
  holding _ _ h := K.still h {}
  powerOn := K.powerOn
  checkEnds := K.checkEnds
  frameStart := K.frameStart
  activeLine := K.activeLine
  blankingSlot _ words h := K.blankingSlot h words
  linkLoss := K.linkLoss
  sendLine := K.sendLine
  endFrame _ h := K.endFrame h
  send s h := by obtain ⟨_, _, e⟩ := s.send_frame; rw [e]; exact K.still h {}
  silent _ h := K.still h {}
  fanUpdate _ h := K.fanUpdate h
  tachPulse _ _ h := K.still h {}
  windowEnd _ x sample h := K.windowEnd h x sample
  stepAxis s a h := K.ripple h (s.ripple_stepAxis a)
  pins _ _ _ h := K.still h {}
  switchCloses s a h := K.ripple h (s.ripple_switchCloses a)
  switchOpens s a h := K.near h (s.near_switchOpens a)
  boundReached s a h := K.ripple h (s.ripple_boundReached a)
  legTimeout s a h := K.ripple h (s.ripple_legTimeout a)
  driverFault s a h := K.ripple h (s.ripple_enterFault a _)
  endGeneration _ h := K.endGeneration h
  softReset := K.softReset
  stop s p h := K.near h (stopBody_effect p s)
  lock _ _ h := readyThen_keeps h fun a _ => K.setHostLock h a true
  unlock _ _ h := readyThen_keeps h fun a _ => K.setHostLock h a false
  clear s p h := by
    refine fieldsThen_keeps h fun x _ => ?_
    simp only [State.clearSource]
    split
    · exact h
    · exact K.still h {}
  lower s p h := by
    refine fieldsThen_keeps h fun w _ => ?_
    repeat' split
    · exact h
    · exact h
    · exact K.lowerTo _ _ h
  eventAck _ _ h := fieldsThen_keeps h fun _ _ => K.still h {}
  move s p h := K.ripple h (moveBody_effect p s)
  hold s p h := K.ripple h (holdBody_effect p s)
  resume s p h := K.ripple h (resumeBody_effect p s)
  returnMove s p h := K.ripple h (returnBody_effect p s)
  home s p h := K.ripple h (homeBody_effect p s)
  place s p h := K.ripple h (placeBody_effect p s)
  placeCancel _ _ h := readyThen_keeps h fun _ _ => K.still h {}
  install _ _ h := by
    refine readyThen_keeps h fun o _ => ?_
    simp only
    split
    · exact h
    · exact K.still h {}
  pictureMode _ _ h := readyThen_keeps h fun _ _ => K.still h {}
  tableOpen s p h := by obtain ⟨_, e⟩ := tableOpenBody_frame p s; rw [e]; exact K.still h {}
  tableRun s p h := by obtain ⟨_, e⟩ := tableRunBody_frame p s; rw [e]; exact K.still h {}
  tableCommit s p h := by obtain ⟨_, e⟩ := tableCommitBody_frame p s; rw [e]; exact K.still h {}
  corners s p h := by obtain ⟨_, _, e⟩ := cornersBody_frame p s; rw [e]; exact K.still h {}
  lensCal s _ h := by
    refine readyThen_keeps h fun (a, cal) _ => ?_
    simp only
    repeat' split
    · exact h
    · exact h
    · exact K.still h (s.still_setAxis rfl)
  profile _ _ h := readyThen_keeps h fun _ _ => K.still h {}
  focusTable _ _ h := readyThen_keeps h fun _ _ => K.still h {}
  focusUpkeep _ _ h := readyThen_keeps h fun _ _ => K.still h {}
  sensorSet _ _ h := fieldsThen_keeps h fun _ _ => K.still h {}
  thresholds _ _ h := fieldsThen_keeps h fun _ _ => K.still h {}
  brightness _ _ h := fieldsThen_keeps h fun _ _ => K.still h {}
  fanCurve _ _ h := fieldsThen_keeps h fun _ _ => K.still h {}
  fanLimits _ _ h := fieldsThen_keeps h fun _ _ => K.still h {}
  quiet _ _ h := fieldsThen_keeps h fun _ _ => K.still h {}
  levels _ _ h := fieldsThen_keeps h fun _ _ => K.ripple (K.still h {}) (State.ripple_accept _)
  actions s _ h := fieldsThen_keeps h fun table _ => K.actions s table h
  eventMask _ _ h := fieldsThen_keeps h fun _ _ => K.still h {}
  queryCounters _ _ h := by
    refine fieldsThen_keeps h fun x _ => ?_
    simp only
    split
    · exact K.still h { link := { others := fun _ _ => rfl } }
    · exact h
  queryCause s p h := by
    refine fieldsThen_keeps h fun x _ => ?_
    simp only
    split
    · exact K.still h {}
    · exact h

end PathKept

/-! ### The light of a line (R20, R21) -/

/-- A pixel is at most full white. -/
theorem luminance_le (p : Sample) : luminance p ≤ 1023 := by
  have hr := p.r.isLt
  have hg := p.g.isLt
  have hb := p.b.isLt
  unfold luminance
  omega

@[simp] theorem OutFrame.line_length (f : OutFrame) (b : Bank) (m : FrameMemory) (y : Nat) :
    (f.line b m y).length = Config.panelColumns := by
  unfold OutFrame.line
  split <;> simp

theorem OutFrame.lineLight_le (f : OutFrame) (b : Bank) (m : FrameMemory) (y : Nat) :
    f.lineLight b m y ≤ 1023 * Config.panelColumns := by
  unfold OutFrame.lineLight
  split
  · exact Nat.zero_le _
  · have h := List.sum_le_card_nsmul ((f.line b m y).map luminance) 1023 (by
      intro n hn
      obtain ⟨p, _, rfl⟩ := List.mem_map.1 hn
      exact luminance_le p)
    rw [List.length_map, OutFrame.line_length, smul_eq_mul, Nat.mul_comm] at h
    exact h

/-- A frame of 2160 lines gives at most the full fraction (R21). -/
theorem lightFraction_le {sum : Nat} (h : sum ≤ 1023 * Config.panelColumns * Config.panelRows) :
    lightFraction sum ≤ 1000 := by
  simp only [Config.panelColumns, Config.panelRows] at h
  unfold lightFraction
  omega

/-! ### The frame in flight (R4, R15) -/

/-- A black frame meets its promise under whatever causes. -/
theorem OutFrame.Sound.blackened {f : OutFrame} {m : Mutes} (h : f.Sound m) (n : Mutes) :
    OutFrame.Sound { f with black := true } n := ⟨fun _ => rfl, h.rows, h.light⟩

/-- A frame stays sound where no cause has come into force. -/
theorem OutFrame.Sound.weaken {f : OutFrame} {m n : Mutes} (h : f.Sound m) (hn : n.any = true → m.any = true) :
    f.Sound n := ⟨fun hb => h.black (hn hb), h.rows, h.light⟩

/-- The next line sent: its row and its light are added (R5, R20). -/
theorem OutFrame.Sound.sent {f : OutFrame} {m : Mutes} (h : f.Sound m) (hr : f.nextRow < Config.panelRows)
    (b : Bank) (mem : FrameMemory) :
    OutFrame.Sound { f with nextRow := f.nextRow + 1, sum := f.sum + f.lineLight b mem f.nextRow } m := by
  refine ⟨h.black, hr, ?_⟩
  have hl := f.lineLight_le b mem f.nextRow
  have hs := h.light
  change f.sum + f.lineLight b mem f.nextRow ≤ 1023 * Config.panelColumns * (f.nextRow + 1)
  rw [Nat.mul_succ]
  omega

/-- `y`'s frame in flight is `x`'s, under no mute cause that was not in force, or `x`'s turned black. -/
structure Picture.Darkens (x y : Picture) : Prop where
  frame : ∀ g, y.frame = some g → ∃ f, x.frame = some f
    ∧ (g = f ∧ (y.mutes.any = true → x.mutes.any = true) ∨ g = { f with black := true })
  lastLight : y.lastLight = x.lastLight := by rfl

theorem Picture.Darkens.refl (x : Picture) : x.Darkens x := ⟨fun g h => ⟨g, h, .inl ⟨rfl, id⟩⟩, rfl⟩

/-- The same frame, with no new cause. -/
theorem Picture.darkens_of_same {x y : Picture} (hf : y.frame = x.frame)
    (hm : y.mutes.any = true → x.mutes.any = true) (hl : y.lastLight = x.lastLight := by rfl) : x.Darkens y :=
  ⟨fun g h => ⟨g, hf ▸ h, .inl ⟨rfl, hm⟩⟩, hl⟩

/-- The frame turned black, whatever the causes. -/
theorem Picture.darkens_of_black {x y : Picture} (hf : y.frame = x.frame.map fun f => { f with black := true })
    (hl : y.lastLight = x.lastLight := by rfl) : x.Darkens y := by
  refine ⟨fun g h => ?_, hl⟩
  rw [hf, Option.map_eq_some_iff] at h
  obtain ⟨f, hx, rfl⟩ := h
  exact ⟨f, hx, .inr rfl⟩

/-- Deliveries (R16): PROT in force turns the frame black, unless it was in force. -/
theorem Picture.Delivered.darkens {x y : Picture} (h : x.Delivered y) : x.Darkens y := by
  have withdrawn : y.mutes.prot = false → y.mutes.any = true → x.mutes.any = true := by
    intro hp
    rw [h.mutes, hp]
    simp only [Mutes.any, Bool.or_eq_true, Bool.or_false]
    tauto
  have kept : x.mutes.prot = true → y.mutes.any = true → x.mutes.any = true := by
    intro hp _
    simp [Mutes.any, hp]
  cases hp : y.mutes.prot with
  | true =>
    rcases h.black hp with ⟨hx, hf⟩ | hf
    · exact Picture.darkens_of_same hf (kept hx) h.lastLight
    · exact Picture.darkens_of_black hf h.lastLight
  | false =>
    rcases h.frame with hf | hf
    · exact Picture.darkens_of_same hf (withdrawn hp) h.lastLight
    · exact Picture.darkens_of_black hf h.lastLight

/-! ### The promises of the picture and the start-up unit -/

theorem State.PictureSound.rolesSound {s : State} (h : s.PictureSound) : s.link.RolesSound := h.roles

/-- What keeps the roles and only darkens the frame keeps the picture's promise. -/
theorem State.PictureSound.keeps {s t : State} (h : s.PictureSound) (hl : s.link.KeepsRead t.link)
    (hp : s.picture.Darkens t.picture) (hm : frameWf t.mem) : t.PictureSound where
  roles := hl.rolesSound h.rolesSound
  frame g hg := by
    obtain ⟨f, hf, ⟨rfl, dark⟩ | rfl⟩ := hp.frame g hg
    · exact (h.frame _ hf).weaken dark
    · exact (h.frame _ hf).blackened _
  read g i z hg hb hr := by
    obtain ⟨f, hf, ⟨rfl, _⟩ | rfl⟩ := hp.frame g hg
    · obtain ⟨hread, hz⟩ := h.read _ i z hf hb hr
      rw [hl.readSlot, hl.record h.rolesSound hread]
      exact ⟨hread, hz⟩
    · cases hb
  light := hp.lastLight ▸ h.light
  memory := hm

/-- The start-up unit's promise rests on the part state, the self-check and two of the causes. -/
theorem State.StartupSound.keeps {s t : State} (h : s.StartupSound)
    (hp : t.startup.part = s.startup.part := by rfl) (hc : t.startup.check = s.startup.check := by rfl)
    (hs : t.picture.mutes.starting = s.picture.mutes.starting := by rfl)
    (hm : t.picture.mutes.memory = s.picture.mutes.memory := by rfl) : t.StartupSound where
  starting := by rw [hp, hc]; exact h.starting
  ready := by rw [hp, hc]; exact h.ready
  startMute := by rw [hs, hp]; exact h.startMute
  memoryMute := by rw [hm, hp]; exact h.memoryMute

/-- Both promises. -/
structure State.Shown (s : State) : Prop where
  picture : s.PictureSound
  startup : s.StartupSound

/-- Whatever leaves the link, the picture, the frame memory and the part state keeps both. -/
theorem State.Shown.of_same {s t : State} (h : s.Shown) (hl : s.link.KeepsRead t.link := by exact .refl _)
    (hp : s.picture.Darkens t.picture := by exact .refl _) (hm : t.mem = s.mem := by rfl)
    (hpart : t.startup.part = s.startup.part := by rfl) (hcheck : t.startup.check = s.startup.check := by rfl)
    (hstart : t.picture.mutes.starting = s.picture.mutes.starting := by rfl)
    (hmem : t.picture.mutes.memory = s.picture.mutes.memory := by rfl) : t.Shown :=
  ⟨h.picture.keeps hl hp (hm ▸ h.picture.memory), h.startup.keeps hpart hcheck hstart hmem⟩

theorem State.Shown.ripple {s t : State} (h : s.Shown) (hr : s.Ripple t) : t.Shown := by
  have hd := hr.delivered
  refine h.of_same ?_ hd.darkens hr.mem ?_ ?_ ?_ ?_
  · rw [hr.link]; exact .refl _
  · rw [hr.startup]
  · rw [hr.startup]
  · rw [hd.mutes]
  · rw [hd.mutes]

theorem State.Shown.near {s t : State} (h : s.Shown) (hn : s.Near t) : t.Shown := h.ripple hn.ripple

/-- A reset leaves no frame in flight and STARTING in force (R22, R178). -/
theorem State.powerOnValues_shown (s : State) (cause : RestartCause) (hold : Hold) :
    (s.powerOnValues cause hold).Shown :=
  ⟨⟨fun _ h => (nomatch h), fun _ h => (nomatch h), fun _ _ _ h => (nomatch h), Nat.zero_le _, forget_wf _⟩,
    ⟨by simp [State.powerOnValues], by simp [State.powerOnValues],
      by simp [State.powerOnValues, State.reset, powerOnPicture, resetMutes],
      by simp [State.powerOnValues, State.reset, powerOnPicture, resetMutes]⟩⟩

/-- SOFT_RESET's values block by block, before the loss of an ABSENT link is reported again (R184). -/
def State.softAccepted (s : State) : State :=
  { s with
    startup := ⟨.starting, .running, .soft⟩, link := s.link.softReset, mem := s.mem.forget, intake := resetIntake
    sender := { powerOnSender with laneOut := s.sender.laneOut }
    picture := s.picture.softReset s.link.present, table := resetTable, gen := resetGen, lens := s.lens.softReset
    place := resetPlacement, focus := softResetFocus (s.axis .f), sensors := s.sensors.softReset
    light := resetLight, fans := s.fans.softReset, prot := resetProtection }

theorem State.softReset_eq (s : State) : s.softReset =
    if s.link.present then s.softAccepted else (s.softAccepted.raise .linkLost).makePending .linkLoss := rfl

/-- SOFT_RESET turns the frame in flight black and gives up the read slot (R22, R184). -/
theorem State.Shown.softAccepted {s : State} (h : s.Shown) : s.softAccepted.Shown := by
  have black : ∀ g, s.softAccepted.picture.frame = some g →
      g.black = true ∧ g.Sound s.softAccepted.picture.mutes := by
    intro g hg
    obtain ⟨f, hf, rfl⟩ := Option.map_eq_some_iff.1 hg
    exact ⟨rfl, (h.picture.frame f hf).blackened _⟩
  refine ⟨⟨fun _ hr => (nomatch hr), fun g hg => (black g hg).2, fun g i z hg hb => ?_, Nat.zero_le _, forget_wf _⟩, ?_⟩
  · rw [(black g hg).1] at hb
    cases hb
  · constructor <;> simp [State.softAccepted, Picture.softReset, Picture.blacken, resetMutes]

theorem State.Shown.softReset {s : State} (h : s.Shown) : s.softReset.Shown := by
  rw [State.softReset_eq]
  split
  · exact h.softAccepted
  · exact h.softAccepted.ripple ((State.near_raise _ _).ripple.trans (State.ripple_makePending _ _))

/-- The self-check's end withdraws STARTING, and a failure brings MEMORY into force (R179). -/
theorem State.Shown.checkEnds {s : State} (h : s.Shown) (passed : Bool) : (s.checkEnds passed).Shown := by
  unfold State.checkEnds
  simp only
  split
  · rename_i hc
    have starting := h.startup.starting.2 hc
    have noMemory : s.picture.mutes.memory = false := by
      rw [← Bool.not_eq_true, h.startup.memoryMute, starting]
      decide
    cases passed with
    | true =>
      rw [if_pos rfl]
      refine State.Shown.near ?_ (State.near_raise _ _)
      refine ⟨h.picture.keeps (.refl _) (Picture.darkens_of_same rfl ?_) h.picture.memory, ?_⟩
      · simp only [Mutes.any, Bool.or_eq_true]
        tauto
      · constructor <;> simp [noMemory]
    | false =>
      rw [if_neg Bool.false_ne_true]
      refine State.Shown.ripple ?_ (State.ripple_makePending _ _)
      refine ⟨h.picture.keeps (.refl _) (Picture.darkens_of_black rfl) h.picture.memory, ?_⟩
      constructor <;> simp [Picture.blacken]
  · exact h

/-- A line is written into the input slot, in a row and in columns that the slot has (R1). -/
theorem State.Shown.activeLine {s : State} (h : s.Shown) (samples : List Sample) : (s.activeLine samples).Shown := by
  unfold State.activeLine
  simp only
  split
  · exact h
  · split
    · rename_i hopen
      obtain ⟨_, _, formats, row⟩ := hopen
      obtain ⟨hw, hh⟩ := Size.inFormats_le formats
      refine ⟨h.picture.keeps ?_ (.refl _) ?_, h.startup.keeps⟩
      · split
        · have hk := Link.keepsRead_setSlot { s.link with activeLines := s.link.activeLines + 1 }
            { s.link.slotRecord s.link.inputSlot with
              counted := (s.link.slotRecord s.link.inputSlot).counted + 1 }
          exact ⟨hk.readSlot, hk.inputSlot, hk.others⟩
        · exact { others := fun _ _ => rfl }
      · exact writeRow_wf h.picture.memory _ (by omega) ((List.length_take_le _ _).trans hw)
    · exact h.of_same { others := fun _ _ => rfl }

/-- At the loss LINK comes into force and the frame turns black; the slot being written is the input slot (R161). -/
theorem State.Shown.linkLoss {s : State} (h : s.Shown) : s.linkLoss.Shown := by
  unfold State.linkLoss
  simp only
  split
  · exact h
  · refine State.Shown.ripple (h.of_same ?_ (Picture.darkens_of_black rfl))
      ((State.near_raise _ _).ripple.trans (State.ripple_makePending _ _))
    have hk := s.link.keepsRead_setSlot (s.link.slotRecord s.link.inputSlot).spoil
    exact ⟨hk.readSlot, hk.inputSlot, hk.others⟩

/-! ### Output lines and the output frame's end -/

/-- A line sent, where one is left. -/
theorem State.sendLine_eq {s : State} {f : OutFrame} (hf : s.picture.frame = some f)
    (hr : f.nextRow < Config.panelRows) :
    s.sendLine = { s with picture := { s.picture with
      frame := some { f with
        nextRow := f.nextRow + 1, sum := f.sum + f.lineLight (s.table.bank f.bank) s.mem f.nextRow }
      panelOut := some
        { row := f.nextRow
          start := if f.nextRow = 0 then some f.parity else none
          pixels := f.line (s.table.bank f.bank) s.mem f.nextRow } } } := by
  simp [State.sendLine, hf, hr]

theorem State.sendLine_of_none {s : State} (hf : s.picture.frame = none) : s.sendLine = s := by
  simp [State.sendLine, hf]

theorem State.sendLine_of_all_sent {s : State} {f : OutFrame} (hf : s.picture.frame = some f)
    (hr : ¬ f.nextRow < Config.panelRows) : s.sendLine = s := by
  simp [State.sendLine, hf, hr]

theorem State.Shown.sendLine {s : State} (h : s.Shown) : s.sendLine.Shown := by
  cases hf : s.picture.frame with
  | none => rwa [State.sendLine_of_none hf]
  | some f =>
    by_cases hr : f.nextRow < Config.panelRows
    · rw [State.sendLine_eq hf hr]
      refine ⟨⟨h.picture.roles, ?_, ?_, h.picture.light, h.picture.memory⟩, h.startup.keeps⟩
      · rintro g ⟨rfl⟩
        exact (h.picture.frame f hf).sent hr _ _
      · rintro g i z ⟨rfl⟩
        exact h.picture.read f i z hf
    · rwa [State.sendLine_of_all_sent hf hr]

theorem State.closeFrame_eq {s : State} {f : OutFrame} (hf : s.picture.frame = some f) :
    s.closeFrame = { s with
      picture := { s.picture with frame := none, lastLight := lightFraction f.sum }
      light := s.light.frameEnded (lightFraction f.sum) } := by
  simp [State.closeFrame, hf]

theorem State.closeFrame_of_none {s : State} (hf : s.picture.frame = none) : s.closeFrame = s := by
  simp [State.closeFrame, hf]

/-- No frame in flight and a light fraction in range: nothing of the picture's promise is left to break. -/
theorem State.Shown.withoutFrame {s : State} (h : s.Shown) {l : Nat} (hl : l ≤ 1000) (x : Light) :
    State.Shown { s with picture := { s.picture with frame := none, lastLight := l }, light := x } :=
  ⟨⟨h.picture.roles, fun _ hg => (nomatch hg), fun _ _ _ hg => (nomatch hg), hl, h.picture.memory⟩,
    h.startup.keeps⟩

/-- The frame closes with a fraction of at most 1000 (R21). -/
theorem State.Shown.closeFrame {s : State} (h : s.Shown) : s.closeFrame.Shown := by
  cases hf : s.picture.frame with
  | none => rwa [State.closeFrame_of_none hf]
  | some f =>
    have hs := h.picture.frame f hf
    have hsum : f.sum ≤ 1023 * Config.panelColumns * Config.panelRows :=
      Nat.le_trans hs.light (Nat.mul_le_mul_left _ hs.rows)
    have hl : lightFraction f.sum ≤ 1000 := lightFraction_le hsum
    rw [State.closeFrame_eq hf]
    exact h.withoutFrame hl _

/-! ### The frame start -/

/-- The state at a frame start when the drive level and the output frame are still to come. -/
def State.frameDecided (s : State) (parity : Parity) (z : Size) : State :=
  let s1 := (s.linkFrameStart parity z).takeCommit parity
  let s2 := s1.checkSize.frameCauses s1.sizeCheck
  s2.placeFrameStart s2.handedMargins

theorem State.inputFrameStart_eq (s : State) (parity : Parity) (z : Size) :
    s.inputFrameStart parity z = (s.frameDecided parity z).driveStep.beginFrame parity := rfl

/-- The link receiver's part of the picture: a returning link withdraws LINK (R17). -/
theorem State.linkFrameStart_picture (s : State) (parity : Parity) (z : Size) :
    (s.linkFrameStart parity z).picture = { s.picture with mutes := { s.picture.mutes with
      link := s.link.present && s.picture.mutes.link } } := by
  unfold State.linkFrameStart
  simp only
  split
  · simp [*]
  · simp [*]

/-- A generation's start writes the load bank, never the active one (R43). -/
theorem State.startGeneration_activeBank (s : State) (z : Size) :
    (s.startGeneration z).table.activeBank = s.table.activeBank :=
  TableStore.activeBank_setLoadBank _ _

theorem State.requestGeneration_activeBank (s : State) (z : Size) :
    (s.requestGeneration z).table.activeBank = s.table.activeBank := by
  unfold State.requestGeneration
  split
  · rfl
  · exact State.startGeneration_activeBank _ _
  · split
    · rfl
    · exact State.startGeneration_activeBank _ _

theorem State.checkSize_activeBank (s : State) : s.checkSize.table.activeBank = s.table.activeBank := by
  unfold State.checkSize
  split
  · rfl
  · rfl
  · rfl
  · split
    · rfl
    · simp only
      split
      · rw [State.requestGeneration_activeBank]; rfl
      · rfl

/-- The size check reads the mode, the read slot's size and the active bank (R34). -/
theorem State.sizeCheck_congr {s t : State} (hm : t.picture.mode = s.picture.mode)
    (hl : t.link = s.link) (hb : t.table.activeBank = s.table.activeBank) : t.sizeCheck = s.sizeCheck := by
  unfold State.sizeCheck
  rw [hm, hl, hb]

/-- What stands at a frame start before the drive step: the link as its receiver left it, the causes decided for
the frame that begins (R15, R17, R34), everything without a part in it unchanged. -/
theorem State.frameDecided_eq (s : State) (parity : Parity) (z : Size) :
    ∃ sender table gen place,
      (s.linkFrameStart parity z).sender.Grows sender
      ∧ s.frameDecided parity z = { s with
        link := (s.linkFrameStart parity z).link, sender := sender, table := table, gen := gen, place := place
        picture := { s.picture with mutes := { s.picture.mutes with
          link := s.link.present && s.picture.mutes.link
          size := (s.frameDecided parity z).sizeCheck.isMismatch
          host := s.picture.mode == .mute } } } := by
  obtain ⟨link, n1, p1, _, h1⟩ := s.linkFrameStart_frame parity z
  have hpicture := s.linkFrameStart_picture parity z
  obtain ⟨n2, t2, g2, h2⟩ := State.takeCommit_frame (s.linkFrameStart parity z) parity
  unfold State.frameDecided
  simp only
  generalize s.linkFrameStart parity z = s0 at *
  generalize s0.takeCommit parity = s1 at h2 ⊢
  obtain ⟨n3, t3, gen3, g3, h3⟩ := s1.checkSize_frame
  have hbank := s1.checkSize_activeBank
  generalize s1.checkSize = s2 at h3 hbank ⊢
  obtain ⟨n4, place, g4, h4⟩ := (s2.frameCauses s1.sizeCheck).placeFrameStart_frame
    (s2.frameCauses s1.sizeCheck).handedMargins
  generalize (s2.frameCauses s1.sizeCheck).placeFrameStart (s2.frameCauses s1.sizeCheck).handedMargins = s3 at h4 ⊢
  have hcheck : s3.sizeCheck = s1.sizeCheck := by
    apply State.sizeCheck_congr
    · rw [h4, h3]; rfl
    · rw [h4, h3]; rfl
    · rw [h4]; exact hbank
  refine ⟨n4, t3, gen3, place, ?_, ?_⟩
  · subst h2 h3
    exact g2.trans (g3.trans g4)
  · rw [hcheck]
    rw [h1] at hpicture
    subst h1 h2 h3 h4
    simp only at hpicture
    simp only [State.frameCauses, hpicture]

/-- The output frame begins with nothing sent, black where a cause is in force, and reads the read slot (R4). -/
theorem State.beginFrame_pictureSound {s : State} (hroles : s.link.RolesSound) (hlight : s.picture.lastLight ≤ 1000)
    (hmem : frameWf s.mem) (parity : Parity) : (s.beginFrame parity).PictureSound where
  roles := hroles
  frame := by
    rintro g ⟨rfl⟩
    exact ⟨id, Nat.zero_le _, Nat.zero_le _⟩
  read := by
    rintro g i z ⟨rfl⟩ _ hread
    obtain ⟨j, hj, e⟩ := Option.map_eq_some_iff.1 hread
    cases e
    exact ⟨hj, rfl⟩
  light := hlight
  memory := hmem

theorem State.Shown.inputFrameStart {s : State} (h : s.Shown) (parity : Parity) (z : Size) :
    (s.inputFrameStart parity z).Shown := by
  obtain ⟨sender, table, gen, place, _, e⟩ := s.frameDecided_eq parity z
  rw [State.inputFrameStart_eq]
  constructor
  · apply State.beginFrame_pictureSound
    · change (s.frameDecided parity z).link.RolesSound
      rw [e]
      exact State.linkFrameStart_rolesSound h.picture.rolesSound parity z
    · change (s.frameDecided parity z).picture.lastLight ≤ 1000
      rw [e]
      exact h.picture.light
    · change frameWf (s.frameDecided parity z).mem
      rw [e]
      exact h.picture.memory
  · rw [e]
    exact h.startup.keeps

/-! ### Every step keeps both promises -/

theorem State.Shown.of_still {s t : State} (h : s.Shown) (hq : s.Still t) : t.Shown :=
  h.of_same hq.link (Picture.darkens_of_same hq.frame (by rw [hq.mutes]; exact id) hq.lastLight) hq.mem hq.part hq.check
    (by rw [hq.mutes]) (by rw [hq.mutes])

/-- A new C or action table is delivered, and else of no effect on the picture. -/
theorem State.Shown.withProt {s : State} (h : s.Shown) (x : Protection) : State.Shown { s with prot := x } := h.of_same

theorem State.Shown.deliver {s : State} (h : s.Shown) : s.deliver.Shown := h.ripple s.ripple_deliver

theorem State.shown_kept : State.PathKept State.Shown where
  still h hq := h.of_still hq
  ripple h hr := h.ripple hr
  powerOn s cause hold := s.powerOnValues_shown cause hold
  checkEnds _ passed h := h.checkEnds passed
  frameStart _ parity z h := h.inputFrameStart parity z
  activeLine _ samples h := h.activeLine samples
  linkLoss _ h := h.linkLoss
  sendLine _ h := h.sendLine
  closeFrame _ h := h.closeFrame
  softReset _ h := h.softReset
  lowerTo s target h := by
    unfold State.lowerTo
    simp only
    split
    · exact h
    · exact ((h.withProt _).near (State.near_raise _ _)).deliver
  actions s table h := by
    split
    · exact (h.withProt _).deliver
    · exact h.withProt _

/-- Settles O20: the promises of the picture and of the start-up unit are kept by each command's effect. -/
theorem mutedFramesAreBlack : Obligations.MutedFramesAreBlack := by
  intro s t picture startup hstep
  have h : t.Shown := State.shown_kept.kept.step ⟨picture, startup⟩ hstep
  exact ⟨h.picture, h.startup⟩

end Sys2Proof.Machine

namespace Sys2Proof.Machine

/-! ### The actions in force and the drive level (R120, R153) -/

/-- What the four consumers hold of the level's actions is all that `State.ActionsInForce` reads. -/
theorem State.ActionsInForce.of_same {s t : State} (h : s.ActionsInForce)
    (hlimit : t.light.limit = s.light.limit := by rfl) (hfloor : t.fans.floor = s.fans.floor := by rfl)
    (hlifted : t.fans.capLifted = s.fans.capLifted := by rfl)
    (hlock : ∀ a, (t.axis a).protLock = (s.axis a).protLock := by exact fun _ => rfl)
    (hmute : t.picture.mutes.prot = s.picture.mutes.prot := by rfl) (hc : t.prot.c = s.prot.c := by rfl)
    (htable : t.prot.table = s.prot.table := by rfl) : t.ActionsInForce where
  limit := by rw [hlimit, hc, htable]; exact h.limit
  floor := by rw [hfloor, hc, htable]; exact h.floor
  lifted := by rw [hlifted, hc, htable]; exact h.lifted
  lock a := by rw [hlock, hc, htable]; exact h.lock a
  mute := by rw [hmute, hc, htable]; exact h.mute

/-- The actions of C are in force, and D is within the light limit. -/
structure State.Limited (s : State) : Prop where
  inForce : s.ActionsInForce
  drive : s.light.d ≤ s.light.limit

theorem State.Limited.of_same {s t : State} (h : s.Limited) (hd : t.light.d = s.light.d := by rfl)
    (hlimit : t.light.limit = s.light.limit := by rfl) (hfloor : t.fans.floor = s.fans.floor := by rfl)
    (hlifted : t.fans.capLifted = s.fans.capLifted := by rfl)
    (hlock : ∀ a, (t.axis a).protLock = (s.axis a).protLock := by exact fun _ => rfl)
    (hmute : t.picture.mutes.prot = s.picture.mutes.prot := by rfl) (hc : t.prot.c = s.prot.c := by rfl)
    (htable : t.prot.table = s.prot.table := by rfl) : t.Limited :=
  ⟨h.inForce.of_same hlimit hfloor hlifted hlock hmute hc htable, by rw [hd, hlimit]; exact h.drive⟩

theorem State.Limited.ripple {s t : State} (h : s.Limited) (hr : s.Ripple t) : t.Limited := by
  refine ⟨hr.inForce h.inForce, ?_⟩
  rcases hr.lightDelivered.within with e | within
  · rw [e]; exact h.drive
  · exact within

theorem State.Limited.near {s t : State} (h : s.Limited) (hn : s.Near t) : t.Limited := h.ripple hn.ripple

/-- A delivery puts the actions in force whatever was in force before, and cuts D to the limit (R120, R153). -/
theorem State.deliver_limited (s : State) : s.deliver.Limited :=
  ⟨s.deliver_inForce, by rw [State.deliver_light]; exact Nat.min_le_right _ _⟩

/-- The step of D ends within the limit where the target is (R118, R119). -/
theorem steppedDrive_le {d limit target : Nat} (ht : target ≤ limit) : steppedDrive d limit target ≤ limit := by
  unfold steppedDrive
  repeat' split
  all_goals omega

theorem State.driveTarget_le (s : State) : s.driveTarget ≤ s.light.limit := by
  unfold State.driveTarget
  split
  · exact Nat.min_le_right _ _
  · exact Nat.zero_le _

@[simp] theorem AxisUnit.softReset_protLock (u : AxisUnit) : u.softReset.protLock = false := by
  unfold AxisUnit.softReset
  simp only
  split <;> rfl

theorem State.powerOnValues_limited (s : State) (cause : RestartCause) (hold : Hold) :
    (s.powerOnValues cause hold).Limited :=
  ⟨⟨rfl, rfl, rfl, fun a => by cases a <;> rfl, rfl⟩, Nat.zero_le _⟩

/-- SOFT_RESET puts the actions of level 0 in force, or those of LINK_LOSS's level (R184). -/
theorem State.softAccepted_limited (s : State) : s.softAccepted.Limited :=
  ⟨⟨rfl, rfl, rfl, fun a => by cases a <;> exact AxisUnit.softReset_protLock _, rfl⟩, Nat.zero_le _⟩

theorem State.softReset_limited (s : State) : s.softReset.Limited := by
  rw [State.softReset_eq]
  split
  · exact s.softAccepted_limited
  · exact s.softAccepted_limited.ripple ((State.near_raise _ _).ripple.trans (State.ripple_makePending _ _))

theorem State.Limited.checkEnds {s : State} (h : s.Limited) (passed : Bool) : (s.checkEnds passed).Limited := by
  unfold State.checkEnds
  simp only
  split
  · split
    · exact h.of_same
    · exact State.Limited.ripple h.of_same (State.ripple_makePending _ _)
  · exact h

/-- At the loss D drops to 0 before LINK_LOSS is made pending (R161). -/
theorem State.Limited.linkLoss {s : State} (h : s.Limited) : s.linkLoss.Limited := by
  unfold State.linkLoss
  simp only
  split
  · exact h
  · exact State.Limited.ripple ⟨h.inForce.of_same, Nat.zero_le _⟩
      ((State.near_raise _ _).ripple.trans (State.ripple_makePending _ _))

theorem State.Limited.inputFrameStart {s : State} (h : s.Limited) (parity : Parity) (z : Size) :
    (s.inputFrameStart parity z).Limited := by
  obtain ⟨_, _, _, _, _, e⟩ := s.frameDecided_eq parity z
  have decided : (s.frameDecided parity z).Limited := by rw [e]; exact h.of_same
  exact ⟨decided.inForce.of_same, steppedDrive_le (State.driveTarget_le _)⟩

theorem State.Limited.activeLine {s : State} (h : s.Limited) (samples : List Sample) :
    (s.activeLine samples).Limited := by
  obtain ⟨_, _, e⟩ := s.activeLine_frame samples
  rw [e]
  exact h.of_same

theorem State.Limited.sendLine {s : State} (h : s.Limited) : s.sendLine.Limited := by
  have mutes := s.sendLine_mutes
  obtain ⟨_, e⟩ := s.sendLine_frame
  rw [e] at mutes ⊢
  exact h.of_same (hmute := congrArg Mutes.prot mutes)

/-- The light fraction is delivered beside the limit and D (R123). -/
theorem State.Limited.frameEnded {s : State} (h : s.Limited) (l : Nat) :
    State.Limited { s with
      picture := { s.picture with frame := none, lastLight := l }, light := s.light.frameEnded l } :=
  h.of_same

theorem State.Limited.closeFrame {s : State} (h : s.Limited) : s.closeFrame.Limited := by
  cases hf : s.picture.frame with
  | none => rwa [State.closeFrame_of_none hf]
  | some f => rw [State.closeFrame_eq hf]; exact h.frameEnded _

/-- LOWER delivers where it moves C (R157). -/
theorem State.Limited.lowerTo {s : State} (h : s.Limited) (target : Nat) : (s.lowerTo target).Limited := by
  unfold State.lowerTo
  simp only
  split
  · exact h
  · exact State.deliver_limited _

/-- The actions of levels 0 and 4 are no table's (R151). -/
theorem ActionTable.actions_fixed (t u : ActionTable) {c : Nat} (h : ¬ (1 ≤ c ∧ c ≤ 3)) :
    t.actions c = u.actions c := by
  match c with
  | 0 => rfl
  | 1 | 2 | 3 => exact absurd (by decide) h
  | _ + 4 => rfl

/-- A new table is delivered at the levels that take their actions from it (R152). -/
theorem State.Limited.newTable {s : State} (h : s.Limited) (table : ActionTable) :
    State.Limited (if 1 ≤ s.prot.c ∧ s.prot.c ≤ 3 then
        State.deliver { s with prot := { s.prot with table := table } }
      else { s with prot := { s.prot with table := table } }) := by
  split
  · exact State.deliver_limited _
  · rename_i hc
    have same := ActionTable.actions_fixed s.prot.table table hc
    obtain ⟨⟨limit, floor, lifted, lock, mute⟩, drive⟩ := h
    rw [same] at limit floor lifted mute
    refine ⟨⟨limit, floor, lifted, fun a => ?_, mute⟩, drive⟩
    have := lock a
    rwa [same] at this

/-- The actions in force and the bound on D survive every command. -/
theorem State.limited_kept : State.PathKept State.Limited where
  still h hq := h.of_same hq.d hq.limit hq.floor hq.lifted hq.lock (by rw [hq.mutes]) hq.c hq.table
  ripple h hr := h.ripple hr
  powerOn s cause hold := s.powerOnValues_limited cause hold
  checkEnds _ passed h := h.checkEnds passed
  frameStart _ parity z h := h.inputFrameStart parity z
  activeLine _ samples h := h.activeLine samples
  linkLoss _ h := h.linkLoss
  sendLine _ h := h.sendLine
  closeFrame _ h := h.closeFrame
  softReset s _ := s.softReset_limited
  lowerTo _ target h := h.lowerTo target
  actions _ table h := h.newTable table

/-- Settles O14: level 4's limit of 0 bounds D, and its PROT cause blackens the frame in flight. -/
theorem levelFourIsDark : Obligations.LevelFourIsDark := by
  intro s t sound hstep four
  have limited : t.Limited := State.limited_kept.kept.step ⟨sound.inForce, sound.light.drive⟩ hstep
  have shown : t.Shown := State.shown_kept.kept.step ⟨sound.picture, sound.startup⟩ hstep
  have limit : t.light.limit = 0 := by rw [limited.inForce.limit, four]; rfl
  have prot : t.picture.mutes.prot = true := by rw [limited.inForce.mute, four]; rfl
  refine ⟨Nat.le_zero.1 (limit ▸ limited.drive), prot, fun f hf => (shown.picture.frame f hf).black ?_⟩
  simp [Mutes.any, prot]

end Sys2Proof.Machine

namespace Sys2Proof.Machine

/-! ### The commands of the picture path -/

theorem exec_inputFrameStart (parity : Parity) (w h : Word) (s : State) :
    exec (.inputFrameStart parity w h) s = whenReleased s (·.inputFrameStart parity ⟨w.toNat, h.toNat⟩) := rfl

theorem exec_activeLine (samples : List Sample) (s : State) :
    exec (.activeLine samples) s = whenReleased s (·.activeLine samples) := rfl

theorem exec_outputLine (s : State) : exec .outputLine s = whenReleased s (·.sendLine) := rfl

theorem exec_outputFrameEnd (s : State) : exec .outputFrameEnd s = whenReleased s (·.endFrame) := rfl

/-! ### The link receiver at a frame start (R1 to R3, R160, R161) -/

/-- The fields of the link that its slots and roles are not. -/
structure Link.SameReception (l m : Link) : Prop where
  present : m.present = l.present
  timerRunning : m.timerRunning = l.timerRunning
  lastParity : m.lastParity = l.lastParity
  lastSize : m.lastSize = l.lastSize
  badCheck : m.badCheck = l.badCheck

theorem Link.setSlot_sameReception (l : Link) (i : SlotId) (r : SlotRecord) : l.SameReception (l.setSlot i r) := by
  cases i <;> exact ⟨rfl, rfl, rfl, rfl, rfl⟩

theorem Link.judge_sameReception (l : Link) : l.SameReception l.judge := by
  cases hw : (l.slotRecord l.inputSlot).whole with
  | true =>
    rw [Link.judge_of_whole hw]
    obtain ⟨h1, h2, h3, h4, h5⟩ :=
      l.setSlot_sameReception l.inputSlot { l.slotRecord l.inputSlot with complete := true }
    exact ⟨h1, h2, h3, h4, h5⟩
  | false =>
    rw [Link.judge_of_not_whole hw]
    exact l.setSlot_sameReception _ _

theorem Link.openFrame_sameReception (l : Link) (z : Size) (ready : Bool) : l.SameReception (l.openFrame z ready) := by
  obtain ⟨h1, h2, h3, h4, h5⟩ := l.setSlot_sameReception l.inputSlot ⟨z, false, ready, false, 0⟩
  exact ⟨h1, h2, h3, h4, h5⟩

/-- A slot that R3 has spoilt is judged not whole, so that judging after a loss changes nothing. -/
theorem Link.giveUp_judge (l : Link) : l.giveUp.judge = l.giveUp := by
  have spoilt : (l.giveUp.slotRecord l.giveUp.inputSlot).spoiled = true
      ∧ (l.giveUp.slotRecord l.giveUp.inputSlot).complete = false := by
    cases h : l.inputSlot <;> simp [Link.giveUp, Link.slotRecord, SlotRecord.spoil, h]
  rw [Link.judge_of_not_whole (by simp [SlotRecord.whole, spoilt.1]), ← spoilt.2]
  exact l.giveUp.setSlot_slotRecord _

theorem Link.giveUp_complete (l : Link) (i : SlotId) : (l.giveUp.slotRecord i).complete = false := by
  cases i <;> rfl

/-- The link after a frame start, with the link ABSENT before: nothing is read, and no slot is complete (R3). -/
theorem State.linkFrameStart_absent {s : State} (h : s.link.present = false) (parity : Parity) (z : Size) :
    (s.linkFrameStart parity z).link.inputSlot = s.link.inputSlot
      ∧ (s.linkFrameStart parity z).link.readSlot = none
      ∧ ∀ i, ((s.linkFrameStart parity z).link.slotRecord i).complete = false := by
  rw [State.linkFrameStart_link, h, if_neg Bool.false_ne_true, Link.giveUp_judge]
  refine ⟨Link.openFrame_inputSlot _ _ _, Link.openFrame_readSlot _ _ _, fun i => ?_⟩
  by_cases hi : i = (s.link.latch parity z).giveUp.inputSlot
  · rw [hi, Link.openFrame_slotRecord_same]
  · rw [Link.openFrame_slotRecord_ne _ _ _ hi]
    exact Link.giveUp_complete _ i

/-- With a whole frame in the input slot it becomes the read slot, and the slots change roles (R2). -/
theorem State.linkFrameStart_whole {s : State} (h : s.link.present = true)
    (hw : (s.link.slotRecord s.link.inputSlot).whole = true) (parity : Parity) (z : Size) :
    (s.linkFrameStart parity z).link.readSlot = some s.link.inputSlot
      ∧ (s.linkFrameStart parity z).link.inputSlot = otherSlot s.link.inputSlot
      ∧ (s.linkFrameStart parity z).link.slotRecord s.link.inputSlot
        = { s.link.slotRecord s.link.inputSlot with complete := true } := by
  have judged := Link.judge_of_whole (l := s.link.latch parity z) hw
  rw [State.linkFrameStart_link, h, if_pos rfl, judged]
  refine ⟨Link.openFrame_readSlot _ _ _, Link.openFrame_inputSlot _ _ _, ?_⟩
  rw [Link.openFrame_slotRecord_ne _ _ _ (ne_otherSlot s.link.inputSlot)]
  exact Link.slotRecord_setSlot_same _ _ _

/-- Otherwise the roles stay, and the other slot's record (R2). -/
theorem State.linkFrameStart_not_whole {s : State} (h : s.link.present = true)
    (hw : (s.link.slotRecord s.link.inputSlot).whole = false) (parity : Parity) (z : Size) :
    (s.linkFrameStart parity z).link.readSlot = s.link.readSlot
      ∧ (s.linkFrameStart parity z).link.inputSlot = s.link.inputSlot
      ∧ (s.linkFrameStart parity z).link.slotRecord (otherSlot s.link.inputSlot)
        = s.link.slotRecord (otherSlot s.link.inputSlot) := by
  have judged := Link.judge_of_not_whole (l := s.link.latch parity z) hw
  rw [State.linkFrameStart_link, h, if_pos rfl, judged]
  have input : ∀ r, ((s.link.latch parity z).setSlot s.link.inputSlot r).inputSlot = s.link.inputSlot :=
    fun r => Link.setSlot_inputSlot _ _ _
  refine ⟨(Link.openFrame_readSlot _ _ _).trans (Link.setSlot_readSlot _ _ _),
    (Link.openFrame_inputSlot _ _ _).trans (input _), ?_⟩
  rw [Link.openFrame_slotRecord_ne _ _ _ (by
    change otherSlot s.link.inputSlot ≠ ((s.link.latch parity z).setSlot s.link.inputSlot _).inputSlot
    rw [input]
    exact otherSlot_ne _)]
  exact Link.slotRecord_setSlot_ne _ _ (otherSlot_ne _)

/-- The link latched and the new frame opened, whatever was before (R1, R160). -/
theorem State.linkFrameStart_opened (s : State) (parity : Parity) (z : Size) :
    Link.SameReception { s.link with
        present := true, timerRunning := true, lastParity := some parity, lastSize := some z }
      (s.linkFrameStart parity z).link
    ∧ (s.linkFrameStart parity z).link.activeLines = 0 ∧ (s.linkFrameStart parity z).link.blankingSlots = 0
    ∧ (s.linkFrameStart parity z).link.slotRecord (s.linkFrameStart parity z).link.inputSlot
      = ⟨z, false, s.startup.part == .ready, false, 0⟩ := by
  rw [State.linkFrameStart_link]
  refine ⟨?_, rfl, rfl, ?_⟩
  · generalize hl : (if s.link.present = true then s.link.latch parity z else (s.link.latch parity z).giveUp) = l
    have latched : Link.SameReception { s.link with
        present := true, timerRunning := true, lastParity := some parity, lastSize := some z } l := by
      subst hl
      split <;> exact ⟨rfl, rfl, rfl, rfl, rfl⟩
    obtain ⟨a1, a2, a3, a4, a5⟩ := latched
    obtain ⟨b1, b2, b3, b4, b5⟩ := l.judge_sameReception
    obtain ⟨c1, c2, c3, c4, c5⟩ := l.judge.openFrame_sameReception z (s.startup.part == .ready)
    exact ⟨(c1.trans b1).trans a1, (c2.trans b2).trans a2, (c3.trans b3).trans a3, (c4.trans b4).trans a4,
      (c5.trans b5).trans a5⟩
  · rw [Link.openFrame_inputSlot]
    exact Link.openFrame_slotRecord_same _ _ _

/-- Settles O21: the link receiver's part of the frame start, by the judgement of R2 and the link's return. -/
theorem frameStartSetsSlotRoles : Obligations.FrameStartSetsSlotRoles := by
  intro s parity w h released
  obtain ⟨_, _, _, _, grows, e⟩ := s.frameDecided_eq parity ⟨w.toNat, h.toNat⟩
  have link : (s.inputFrameStart parity ⟨w.toNat, h.toNat⟩).link
      = (s.linkFrameStart parity ⟨w.toNat, h.toNat⟩).link := by
    change (s.frameDecided parity ⟨w.toNat, h.toNat⟩).link = _
    rw [e]
  obtain ⟨⟨present, timer, lastParity, lastSize, badCheck⟩, lines, slots, opened⟩ :=
    s.linkFrameStart_opened parity ⟨w.toNat, h.toNat⟩
  refine ⟨_, (exec_inputFrameStart _ _ _ s).trans (whenReleased_eq released _), ?_⟩
  rw [link]
  refine ⟨present, timer, lastParity, lastSize, badCheck, lines, slots, opened, fun absent => ?_,
    fun present => ⟨fun whole => ?_, fun notWhole => ?_⟩⟩
  · have back : (s.linkFrameStart parity ⟨w.toNat, h.toNat⟩).sender.has .linkBack = true := by
      simp [State.linkFrameStart, absent, Sender.has_raise]
    have sender := congrArg State.sender e
    have muted := congrArg (fun t : State => t.picture.mutes.link) e
    refine ⟨?_, ?_, State.linkFrameStart_absent absent _ _⟩
    · change (s.frameDecided parity ⟨w.toNat, h.toNat⟩).sender.has .linkBack = true
      rw [sender]
      exact grows.has back
    · exact muted.trans (by simp [absent])
  · exact State.linkFrameStart_whole present ((SlotRecord.whole_iff _).2 whole) _ _
  · rw [← SlotRecord.whole_iff, Bool.not_eq_true] at notWhole
    exact State.linkFrameStart_not_whole present notWhole _ _

/-! ### The output frame that a frame start begins (R4, R15, R119) -/

/-- SIZE is in force in TABLE mode with a read slot of another size than the active bank (R34). -/
theorem State.sizeCheck_isMismatch (s : State) : s.sizeCheck.isMismatch = true ↔ s.picture.mode = .table ∧
    ∃ i, s.link.readSlot = some i ∧ (s.link.slotRecord i).size ≠ s.table.activeBank.size := by
  cases hm : s.picture.mode with
  | identity | grid | mute => simp [State.sizeCheck, hm, SizeCheck.isMismatch]
  | table =>
    cases hr : s.link.readSlot with
    | none => simp [State.sizeCheck, hm, Link.readSize, hr, SizeCheck.isMismatch]
    | some i =>
      by_cases hz : (s.link.slotRecord i).size = s.table.activeBank.size
      · simp [State.sizeCheck, hm, Link.readSize, hr, hz, SizeCheck.isMismatch]
      · simp [State.sizeCheck, hm, Link.readSize, hr, hz, SizeCheck.isMismatch]

/-- Settles O22: the blocks as `State.frameDecided_eq` leaves them, then the drive step and the output frame. -/
theorem frameStartBeginsOneFrame : Obligations.FrameStartBeginsOneFrame := by
  intro s parity w h released
  refine ⟨_, (exec_inputFrameStart _ _ _ s).trans (whenReleased_eq released _), ?_⟩
  obtain ⟨_, _, _, _, _, _, _, frame⟩ := s.inputFrameStart_frame parity ⟨w.toNat, h.toNat⟩
  obtain ⟨_, _, _, _, _, e⟩ := s.frameDecided_eq parity ⟨w.toNat, h.toNat⟩
  rw [State.inputFrameStart_eq] at frame ⊢
  generalize s.frameDecided parity ⟨w.toNat, h.toNat⟩ = d at e frame ⊢
  have mode : d.picture.mode = s.picture.mode := congrArg (·.picture.mode) e
  have orientation : d.picture.orientation = s.picture.orientation := congrArg (·.picture.orientation) e
  have size : d.picture.mutes.size = d.sizeCheck.isMismatch := congrArg (·.picture.mutes.size) e
  have light : d.light = s.light := by rw [e]
  have startup : d.startup = s.startup := by rw [e]
  refine ⟨rfl, ?_, mode, orientation, congrArg (·.picture.lastLight) e, congrArg (·.picture.mutes.host) e, ?_, ?_, ?_⟩
  · rw [← mode, ← orientation]
    rfl
  · rw [← mode]
    change d.picture.mutes.size = true ↔ _
    rw [size]
    exact d.sizeCheck_isMismatch
  · rw [← light, ← startup]
    rfl
  · rw [frame]
    exact ⟨rfl, rfl, rfl, rfl, rfl, rfl, rfl, rfl, rfl, rfl, rfl⟩

/-! ### Active lines (R1) -/

theorem Link.setSlot_activeLines (l : Link) (i : SlotId) (r : SlotRecord) (n : Nat) :
    Link.setSlot { l with activeLines := n } i r = { l.setSlot i r with activeLines := n } := by cases i <;> rfl

/-- Settles O25: what a row's write covers reads back, and everything else as before. -/
theorem activeLineWritesItsRow : Obligations.ActiveLineWritesItsRow := by
  intro s samples released present
  refine ⟨fun writes => ?_, fun passes => ?_⟩
  · refine ⟨s.mem.writeRow s.link.inputSlot s.link.activeLines
      (samples.take (s.link.slotRecord s.link.inputSlot).size.w), ?_, ?_, ?_⟩
    · rw [exec_activeLine, whenReleased_eq released]
      unfold State.activeLine
      rw [if_neg (by simp [present])]
      simp only [if_pos writes]
      by_cases hw : (s.link.slotRecord s.link.inputSlot).size.w ≤ samples.length
      · simp only [if_pos hw, Link.setSlot_activeLines]
      · have same : s.link.setSlot s.link.inputSlot { s.link.slotRecord s.link.inputSlot with
            counted := (s.link.slotRecord s.link.inputSlot).counted + 0 } = s.link := s.link.setSlot_slotRecord _
        simp only [if_neg hw, same]
    · intro col x hcol hx
      obtain ⟨hlen, rfl⟩ := List.getElem?_eq_some_iff.1 hx
      rw [sample_writeRow_same _ _ _ _ (by rw [List.length_take]; omega), List.getElem_take]
    · intro slot row col outside
      refine sample_writeRow_other _ _ _ _ _ _ _ (outside.imp_right (Or.imp_right fun short => ?_))
      rw [List.length_take]
      omega
  · rw [exec_activeLine, whenReleased_eq released]
    simp [State.activeLine, present, if_neg passes]

/-! ### Output lines and the output frame's end (R5, R20, R21) -/

theorem luminance_blackSample : luminance blackSample = 0 := rfl

/-- A line sent black counts 0, which is the light of its black pixels (R20). -/
theorem OutFrame.lineLight_eq (f : OutFrame) (b : Bank) (m : FrameMemory) (y : Nat) :
    f.lineLight b m y = ((f.line b m y).map luminance).sum := by
  unfold OutFrame.lineLight
  split
  · rename_i hb
    simp only [OutFrame.line, hb, if_true, List.map_replicate, luminance_blackSample, List.sum_replicate, smul_zero]
  · rfl

/-- Settles O30: the line's pixels are the frame's, one for each column. -/
theorem outputLineSendsTheNextRow : Obligations.OutputLineSendsTheNextRow := by
  intro s f released hf hrow
  refine ⟨f.line (s.table.bank f.bank) s.mem f.nextRow, f.line_length _ _ _, fun x hx => ?_, ?_⟩
  · unfold OutFrame.line
    split
    · exact List.getElem?_replicate_of_lt hx
    · rename_i hb
      rw [List.getElem?_map, List.getElem?_range (show x < Config.panelColumns from hx), Option.map_some,
        OutFrame.pixel, if_neg hb]
  · rw [exec_outputLine, whenReleased_eq released, State.sendLine_eq hf hrow, OutFrame.lineLight_eq]
    rfl

theorem State.endFrame_eq {s : State} {f : OutFrame} (hf : s.picture.frame = some f) :
    s.endFrame = (State.sendLines (Config.panelRows - f.nextRow) s).closeFrame := by
  simp [State.endFrame, hf]

/-- The frame's end sends first the line that an output line would have sent (assumption 9). -/
theorem State.endFrame_sendLine {s : State} {f : OutFrame} (hf : s.picture.frame = some f)
    (hr : f.nextRow < Config.panelRows) : s.sendLine.endFrame = s.endFrame := by
  have sent := congrArg (·.picture.frame) (State.sendLine_eq hf hr)
  rw [State.endFrame_eq hf, State.endFrame_eq sent, ← State.sendLines.eq_2]
  congr 2
  change Config.panelRows - (f.nextRow + 1) + 1 = Config.panelRows - f.nextRow
  omega

/-- Settles O31: with every line sent the frame closes; before that, its end goes on from the next line. -/
theorem frameEndDeliversTheLightFraction : Obligations.FrameEndDeliversTheLightFraction := by
  intro s f released hf
  refine ⟨fun all => ?_, fun left => ?_⟩
  · rw [exec_outputFrameEnd, whenReleased_eq released, State.endFrame_eq hf, all]
    exact congrArg _ (State.closeFrame_eq hf)
  · have held : s.sendLine.hold.held = false := by
      obtain ⟨_, e⟩ := s.sendLine_frame
      rw [e]
      exact released
    refine ⟨s.sendLine, (exec_outputLine s).trans (whenReleased_eq released _), ?_⟩
    rw [exec_outputFrameEnd, exec_outputFrameEnd, whenReleased_eq released, whenReleased_eq held,
      State.endFrame_sendLine hf left]

/-! ### The sampling (R10) -/

theorem blend_le {p q w : Nat} (hp : p ≤ 1023) (hq : q ≤ 1023) (hw : w ≤ 16) : blend p q w ≤ 1023 := by
  have h1 := Nat.mul_le_mul_right (16 - w) hp
  have h2 := Nat.mul_le_mul_right w hq
  unfold blend
  omega

theorem blend_self (p : Nat) {w : Nat} (hw : w ≤ 16) : blend p p w = p := by
  unfold blend
  rw [← Nat.mul_add, Nat.sub_add_cancel hw]
  omega

theorem blend_zero (p q : Nat) : blend p q 0 = p := by
  unfold blend
  omega

/-- The weight of a source position's fraction is below 16. -/
theorem fraction_le (u : Nat) : (u - u / 65536 * 65536) / 4096 ≤ 16 := by omega

theorem fraction_of_whole {u : Nat} (h : u % 65536 = 0) : (u - u / 65536 * 65536) / 4096 = 0 := by omega

/-- Settles O33: each stage is a weighted mean, and a whole position gives the first neighbour all the weight. -/
theorem samplingStaysInTenBits : Obligations.SamplingStaysInTenBits := by
  intro p z u v bound
  refine ⟨?_, fun x h1 h2 h3 h4 => ?_, fun hu hv => ?_⟩
  · exact blend_le (blend_le (bound _ _) (bound _ _) (fraction_le u))
      (blend_le (bound _ _) (bound _ _) (fraction_le u)) (fraction_le v)
  · unfold sampleComponent
    simp only
    rw [h1, h2, h3, h4, blend_self x (fraction_le u), blend_self x (fraction_le v)]
  · unfold sampleComponent
    simp only
    rw [fraction_of_whole hu, fraction_of_whole hv, blend_zero, blend_zero]

/-! ### The coordinate chain (R6 to R9) -/

theorem screenOf_eq (o : Orientation) (x y : Nat) : screenOf o x y =
    (if o = .floor then (x : Int) else 3839 - x, if o = .floor then (y : Int) else 2159 - y) := by
  cases o <;> rfl

/-- The source position of a column within the record's span and the source (R9). -/
theorem sourcePosition_eq_some {r : LineRecord} {z : Size} {xm : Nat} {u v : Int}
    (hu : u = r.u0 + ((xm : Int) - r.xLeft) * r.du) (hv : v = r.v0 + ((xm : Int) - r.xLeft) * r.dv)
    (span : r.xLeft ≤ xm ∧ xm < r.xRight)
    (source : 0 ≤ u ∧ 0 ≤ v ∧ u ≤ ((z.w : Int) - 1) * 65536 ∧ v ≤ ((z.h : Int) - 1) * 65536) :
    sourcePosition r z xm = some (u.toNat, v.toNat) := by
  unfold sourcePosition
  rw [if_neg (by omega)]
  simp only
  rw [← hu, ← hv, if_neg (by omega)]

/-- Outside the span or the source there is none (R9). -/
theorem sourcePosition_eq_none {r : LineRecord} {z : Size} {xm : Nat} {u v : Int}
    (hu : u = r.u0 + ((xm : Int) - r.xLeft) * r.du) (hv : v = r.v0 + ((xm : Int) - r.xLeft) * r.dv)
    (h : xm < r.xLeft ∨ r.xRight ≤ xm ∨ u < 0 ∨ v < 0 ∨ ((z.w : Int) - 1) * 65536 < u
      ∨ ((z.h : Int) - 1) * 65536 < v) :
    sourcePosition r z xm = none := by
  unfold sourcePosition
  split
  · rfl
  · simp only
    rw [← hu, ← hv, if_pos (by omega)]

theorem mappedPixel_of_none {b : Bank} {xm ym : Nat}
    (h : (bankRecord b ym).kind ≠ 1 ∨ sourcePosition (bankRecord b ym) b.size xm = none)
    (p : Nat → Nat → Sample) : mappedPixel b p xm ym = blackSample := by
  unfold mappedPixel
  simp only
  split
  · rename_i hk
    rw [h.resolve_left (not_not_intro hk)]
  · rfl

theorem mappedPixel_of_some {b : Bank} {xm ym u v : Nat} (hk : (bankRecord b ym).kind = 1)
    (h : sourcePosition (bankRecord b ym) b.size xm = some (u, v)) (p : Nat → Nat → Sample) :
    mappedPixel b p xm ym = sampleAt p b.size u v := by
  simp [mappedPixel, hk, h]

section OpenPixel

variable {f : OutFrame} {x y : Nat} {xm ym : Int}
  (hx : xm = (if f.orientation = .floor then (x : Int) else 3839 - x) - f.dx)
  (hy : ym = (if f.orientation = .floor then (y : Int) else 2159 - y) - f.dy)

include hx hy

/-- Outside the panel after the offset the pixel is black (R8). -/
theorem OutFrame.openPixel_outside (h : ¬ (0 ≤ xm ∧ xm ≤ 3839 ∧ 0 ≤ ym ∧ ym ≤ 2159)) (b : Bank) (m : FrameMemory) :
    f.openPixel b m x y = blackSample := by
  simp only [OutFrame.openPixel, screenOf_eq, ← hx, ← hy]
  rw [if_pos (by omega)]

theorem OutFrame.openPixel_identity (h : 0 ≤ xm ∧ xm ≤ 3839 ∧ 0 ≤ ym ∧ ym ≤ 2159) (hm : f.mode = .identity)
    (b : Bank) (m : FrameMemory) :
    f.openPixel b m x y = match f.read with
      | some (slot, z) => if xm < z.w ∧ ym < z.h then m.sample slot ym.toNat xm.toNat else blackSample
      | none => blackSample := by
  simp only [OutFrame.openPixel, screenOf_eq, ← hx, ← hy, hm]
  rw [if_neg (by omega)]
  cases f.read with
  | none => rfl
  | some r =>
    obtain ⟨slot, z⟩ := r
    have inside : (xm.toNat < z.w ∧ ym.toNat < z.h) ↔ (xm < z.w ∧ ym < z.h) := by omega
    simp only [inside]

/-- TABLE and GRID take the mapped pixel of their source (R9, R11). -/
theorem OutFrame.openPixel_mapped (h : 0 ≤ xm ∧ xm ≤ 3839 ∧ 0 ≤ ym ∧ ym ≤ 2159)
    (hm : f.mode = .table ∨ f.mode = .grid) (b : Bank) (m : FrameMemory) :
    f.openPixel b m x y
      = mappedPixel b (if f.mode = .table then f.source m else gridSample b.size) xm.toNat ym.toNat := by
  simp only [OutFrame.openPixel, screenOf_eq, ← hx, ← hy]
  rw [if_neg (by omega)]
  rcases hm with hm | hm <;> simp [hm]

end OpenPixel

/-- In MUTE every pixel is black (R12). -/
theorem OutFrame.openPixel_mute {f : OutFrame} (hm : f.mode = .mute) (b : Bank) (m : FrameMemory) (x y : Nat) :
    f.openPixel b m x y = blackSample := by
  simp [OutFrame.openPixel, hm]

/-- Settles O32: the chain mode by mode, and in TABLE and GRID by what the record admits. -/
theorem coordinateChainFollowsTheRecord : Obligations.CoordinateChainFollowsTheRecord := by
  intro f b m x y
  simp only
  generalize hx : (if f.orientation = .floor then (x : Int) else 3839 - x) - f.dx = xm
  generalize hy : (if f.orientation = .floor then (y : Int) else 2159 - y) - f.dy = ym
  refine ⟨fun outside => OutFrame.openPixel_outside hx.symm hy.symm outside b m,
    fun hm => OutFrame.openPixel_mute hm b m x y,
    fun inside hm => OutFrame.openPixel_identity hx.symm hy.symm inside hm b m, fun inside hm => ?_⟩
  have column : (xm.toNat : Int) = xm := Int.toNat_of_nonneg inside.1
  rw [OutFrame.openPixel_mapped hx.symm hy.symm inside hm]
  generalize hr : bankRecord b ym.toNat = r
  refine ⟨fun black => mappedPixel_of_none ?_ _, fun lit left right hu hv hw hh => ?_⟩
  · rw [hr]
    refine black.imp_right fun h => ?_
    exact sourcePosition_eq_none (by rw [column]) (by rw [column]) (by omega)
  · refine mappedPixel_of_some (hr ▸ lit) ?_ _
    rw [hr]
    exact sourcePosition_eq_some (by rw [column]) (by rw [column]) (by omega) ⟨hu, hv, hw, hh⟩

end Sys2Proof.Machine

namespace Sys2Proof.Machine

/-! ### A delivery at its consumers (R75, R141, R153) -/

/-- On an axis with a lock already only the lock is set (R75). -/
theorem State.setProtLock_of_locked {s : State} {a : Axis} (h : (s.axis a).locked = true) :
    s.setProtLock a true = s.setAxis a { s.axis a with protLock := true } := by
  simp [State.setProtLock, h]

/-- On an axis free of both locks the lock takes effect (R75). -/
theorem State.setProtLock_of_free {s : State} {a : Axis} (h : (s.axis a).locked = false) :
    s.setProtLock a true = (s.setAxis a { s.axis a with protLock := true }).lockEffect a := by
  simp [State.setProtLock, h]

/-- Without the lens lock a delivery only clears the axes' protection locks (R153). -/
theorem State.deliver_unlocked {s : State} (h : (s.prot.table.actions s.prot.c).lensLock = false) :
    s.deliver = { s.delivering with lens := { s.lens with axes :=
      ⟨{ s.axis .v with protLock := false }, { s.axis .h with protLock := false },
        { s.axis .f with protLock := false }⟩ } } := by
  rw [State.deliver_eq, h]
  rfl

/-- Where no protection lock is set either, it leaves the lens controller alone. -/
theorem State.deliver_of_unlocked {s : State} (h : (s.prot.table.actions s.prot.c).lensLock = false)
    (hu : ∀ a, (s.axis a).protLock = false) : s.deliver = s.delivering := by
  have same : ∀ a, { s.axis a with protLock := false } = s.axis a := fun a => by rw [← hu a]
  rw [State.deliver_unlocked h, same, same, same]
  rfl

/-- A fan meets a delivered floor by its state (the table of R141). -/
theorem FanUnit.meetFloor_eq (u : FanUnit) (floor : Nat) :
    u.meetFloor floor = if floor ≤ u.duty then u else match u.state with
      | .stopped => { u with state := .spinup, duty := 1000, spin := 0 }
      | .running => { u with duty := floor }
      | .stalled => { u with duty := floor }
      | .spinup => u := by
  obtain ⟨_, state, duty⟩ := u
  by_cases h : floor ≤ duty
  · simp [FanUnit.meetFloor, h, Nat.not_lt.2 h]
  · rw [FanUnit.meetFloor, if_pos (Nat.lt_of_not_le h), if_neg h]
    cases state <;> rfl

/-- Settles O44: what a delivery writes at each consumer, and the table of R75 by the phase the lock finds. -/
theorem deliveryActsAtOnce : Obligations.DeliveryActsAtOnce := by
  intro s
  have r := s.ripple_deliver
  refine ⟨s.deliver_light, by rw [State.deliver_fans]; rfl, by rw [State.deliver_fans]; rfl,
    by rw [State.deliver_fans]; rfl, fun x => ?_, ?_,
    fun x => ⟨s.deliver_protLock x, r.hostLock x, r.cal x⟩, ?_, s.deliver_prot, r.startup, r.link, r.intake, r.table,
    r.gen, r.mem, r.sensors⟩
  · rw [State.fan, State.deliver_fans, Fans.deliver_get]
    exact FanUnit.meetFloor_eq (s.fan x) _
  · rw [State.deliver_picture]
    cases (s.prot.table.actions s.prot.c).mute <;> rfl
  · intro delivered locked
    have delivering : delivered = s.delivering := by
      simp only [delivered, State.deliver_light, State.deliver_fans, State.deliver_picture]
      rfl
    have table : ∀ (q : State) (x : Axis), q.setProtLock x true = locked q x := by
      intro q x
      simp only [locked]
      cases hl : (q.axis x).locked with
      | true =>
        rw [if_pos (by simpa [AxisUnit.locked] using hl)]
        exact State.setProtLock_of_locked hl
      | false =>
        rw [if_neg (by simpa [AxisUnit.locked] using hl), State.setProtLock_of_free hl, State.lockEffect,
          State.axis_setAxis_same]
        generalize q.setAxis x { q.axis x with protLock := true } = w
        cases (q.axis x).phase with
        | stopping m intent left => cases intent <;> rfl
        | _ => rfl
    refine ⟨fun on => ?_, fun off => ?_⟩
    · rw [State.deliver_eq, on, delivering, table, table, table]
    · rw [State.deliver_unlocked off, delivering]

/-! ### Raising a flag (R170, R171) -/

theorem flagBit_lt (e : EventFlag) : flagBit e < 32 := by
  cases e with
  | moveDone a | stopped a | axisFault a | slip a | homeDone a | homeFailed a => cases a <;> decide
  | _ => decide

/-- A raise sets its own flag's bit and no other (R170). -/
theorem Sender.has_raise_iff (x : Sender) (e g : EventFlag) :
    (x.raise e).has g = true ↔ x.has g = true ∨ flagBit g = flagBit e := by
  have := flagBit_lt e
  simp only [Sender.has, Sender.raise_flags, BitVec.getLsbD_or, BitVec.getLsbD_twoPow, Bool.or_eq_true, this,
    decide_true, Bool.true_and, decide_eq_true_eq, eq_comm (a := flagBit g)]

/-- A notice QUEUED stays QUEUED (R171). -/
theorem Sender.raise_queued (x : Sender) (e : EventFlag) (h : x.notice = .queued) : (x.raise e).notice = .queued := by
  unfold Sender.raise
  split
  · exact h
  · simp [h]

/-! ### SOFT_RESET (R184) -/

theorem exec_softReset {s : State} {e : Envelope} {p : List Word} (h : s.Executes e 0x06#8 p) :
    exec .softReset s = .next s.softReset := by
  have arm : exec .softReset s = execSoftReset s := rfl
  rw [arm, execSoftReset, whenReleased_eq h.free]
  simp [h.slot, h.kind]

/-- The protection unit when SOFT_RESET has reported the loss again: LINK_LOSS has level 1 by default (R147). -/
def lossProtection : Protection :=
  { resetProtection with
    pending := resetProtection.pending.set .linkLoss true, c := 1, cause := .source .linkLoss }

/-- The reply sender after the loss: its flags LINK_LOST, SOURCE_PENDING and LEVEL_CHANGED raised (R161, R170). -/
def lossSender (laneOut : Option (List Word)) : Sender :=
  ((Sender.raise { powerOnSender with laneOut := laneOut } .linkLost).raise .sourcePending).raise .levelChanged

theorem lossSender_has (laneOut : Option (List Word)) (e : EventFlag) :
    (lossSender laneOut).has e = true ↔ e = .linkLost ∨ e = .sourcePending ∨ e = .levelChanged := by
  have clear : ({ powerOnSender with laneOut := laneOut } : Sender).has e = false := BitVec.getLsbD_zero
  rw [lossSender, Sender.has_raise_iff, Sender.has_raise_iff, Sender.has_raise_iff, clear]
  cases e with
  | moveDone a | stopped a | axisFault a | slip a | homeDone a | homeFailed a => cases a <;> simp [flagBit, axisNumber]
  | _ => simp [flagBit]

theorem lossSender_notice (laneOut : Option (List Word)) : (lossSender laneOut).notice = .queued := by
  have clear : ({ powerOnSender with laneOut := laneOut } : Sender).has .linkLost = false := BitVec.getLsbD_zero
  have masked : flagBits.getLsbD (flagBit .linkLost) = true := by decide
  refine Sender.raise_queued _ _ (Sender.raise_queued _ _ ?_)
  rw [Sender.raise, if_neg (by rw [clear]; decide)]
  simp [powerOnSender, masked]

/-- LINK_LOSS made pending in the reset protection unit delivers the actions of its level. -/
theorem State.makePending_linkLoss {s : State} (h : s.prot = resetProtection) :
    s.makePending .linkLoss = State.deliver { s with
      prot := lossProtection, sender := (s.sender.raise .sourcePending).raise .levelChanged } := by
  unfold State.makePending State.accept
  rw [if_neg (by rw [h]; decide), if_pos (by simp only [State.raise_prot, h]; decide)]
  simp only [State.raise, h]
  rfl

/-- SOFT_RESET as a whole: the acceptance's values, and with the link ABSENT the delivery of level 1. -/
theorem State.softReset_blocks (s : State) : s.softReset = { s.softAccepted with
    sender := if s.link.present then s.softAccepted.sender else lossSender s.sender.laneOut
    light := if s.link.present then resetLight else { resetLight with limit := 800 }
    fans := if s.link.present then s.fans.softReset else s.fans.softReset.deliver 300 false
    prot := if s.link.present then resetProtection else lossProtection } := by
  rw [State.softReset_eq]
  cases h : s.link.present with
  | true => rfl
  | false =>
    simp only [Bool.false_eq_true, if_false]
    rw [State.makePending_linkLoss rfl, State.deliver_of_unlocked rfl]
    · rfl
    · exact fun a => by cases a <;> exact AxisUnit.softReset_protLock _

/-- An axis at SOFT_RESET (the table of R58). -/
theorem AxisUnit.softReset_spec (u : AxisUnit) :
    u.softReset.cal = u.cal ∧ u.softReset.hostLock = false ∧ u.softReset.protLock = false
      ∧ u.softReset.lastEnd = .none
      ∧ (u.phase = .idle → u.softReset.phase = .idle ∧ u.softReset.pos = u.pos ∧ u.softReset.ring = u.ring)
      ∧ (u.phase ≠ .idle → u.softReset.phase = .unhomed ∧ u.softReset.pos = 0 ∧ u.softReset.ring = []) := by
  cases h : u.phase <;> simp [AxisUnit.softReset, h]

theorem State.softAccepted_axis (s : State) (a : Axis) : s.softAccepted.axis a = (s.axis a).softReset := by
  cases a <;> rfl

theorem State.softAccepted_sensor (s : State) (x : Sensor) :
    s.softAccepted.sensor x = (s.sensor x).softReset x := by
  cases x <;> rfl

theorem Fans.softReset_get (x : Fans) (i : Fan) :
    x.softReset.units.get i = { x.units.get i with record := defaultFanRecord i } := by
  cases i <;> rfl

/-- Settles O7: block by block from `State.softReset_blocks`, the link present or absent. -/
theorem softResetKeepsAndDiscards : Obligations.SoftResetKeepsAndDiscards := by
  intro s e p executes
  have axis := fun a => (s.axis a).softReset_spec
  have mask : (lossSender s.sender.laneOut).mask = flagBits := by simp [lossSender, Sender.raise_mask, powerOnSender]
  simp only [← State.softAccepted_axis] at axis
  refine ⟨_, exec_softReset executes, ?_⟩
  rw [State.softReset_blocks]
  refine ⟨rfl, rfl, rfl, ?_, rfl, rfl, rfl, rfl, rfl, rfl, rfl, rfl, rfl, axis, rfl, rfl, fun x => ?_, rfl,
    ?_, ?_, ?_, ?_, ?_, ?_, fun present => ?_, fun absent => ?_, rfl, rfl, rfl⟩
  · cases s.link.present
    · exact mask
    · rfl
  · change (s.softAccepted.sensor x).reading = _ ∧ (s.softAccepted.sensor x).raw = _
      ∧ (s.softAccepted.sensor x).high = _ ∧ (s.softAccepted.sensor x).fault = _
      ∧ (s.softAccepted.sensor x).pend = _ ∧ (s.softAccepted.sensor x).window = _
      ∧ (s.softAccepted.sensor x).index = _ ∧ (s.softAccepted.sensor x).trip = _
    rw [State.softAccepted_sensor]
    exact ⟨rfl, rfl, rfl, rfl, rfl, rfl, rfl, rfl⟩
  case refine_4 | refine_5 | refine_6 | refine_7 | refine_8 | refine_3 => cases s.link.present <;> rfl
  · simp only [present, if_true]
    exact ⟨trivial, rfl, rfl, rfl, fun x => Fans.softReset_get s.fans x⟩
  · simp only [absent, Bool.false_eq_true, if_false]
    refine ⟨rfl, lossSender_has _, lossSender_notice _, rfl, fun x => ?_⟩
    change (s.fans.softReset.deliver 300 false).units.get x = _
    rw [Fans.deliver_get, Fans.softReset_get]
    exact FanUnit.meetFloor_eq _ _

end Sys2Proof.Machine

namespace Sys2Proof.Machine

/-! ### A message carried out, by what its body gives -/

theorem exec_eq_ended {c : Instr} {s t : State} {e : Envelope} {kind : Byte} {p : List Word} {o : MsgOutcome}
    {body : List Word → State → State × MsgOutcome} (arm : exec c s = runMessage s (ofKind kind) body)
    (h : s.Executes e kind p) (hb : body p s = (t, o)) : exec c s = .next (t.ended e o) := by
  rw [arm, runMessage_eq h (ofKind_eq h), hb]

/-- Out of STARTING the payload's fields decide: the rest of the body where they are given. -/
theorem readyThen_of_some {φ : Type} {fields : Option φ} {x : φ} {k : φ → State → State × MsgOutcome} {s : State}
    (hs : s.startup.part ≠ .starting) (hf : fields = some x) : readyThen fields k s = k x s := by
  simp [readyThen, State.starting, hs, hf]

/-- And BAD_FIELD where they are not. -/
theorem readyThen_of_none {φ : Type} {fields : Option φ} {k : φ → State → State × MsgOutcome} {s : State}
    (hs : s.startup.part ≠ .starting) (hf : fields = none) : readyThen fields k s = (s, .refused .badField) := by
  simp [readyThen, State.starting, hs, hf]

/-! ### Codes and fields that are read back (spec 10.8) -/

theorem modeOf_modeCode (m : PictureMode) : modeOf (BitVec.ofNat 16 (modeCode m)) = some m := by cases m <;> rfl

theorem orientationOf_orientationCode (o : Orientation) :
    orientationOf (BitVec.ofNat 16 (orientationCode o)) = some o := by cases o <;> rfl

theorem dirOf_dirCode (d : Dir) : dirOf (BitVec.ofNat 16 (dirCode d)) = some d := by cases d <;> rfl

theorem yesNo_flagWord (b : Bool) : yesNo (flagWord b) = some b := by cases b <;> rfl

theorem upTo_ofNat {top n : Nat} (h : n ≤ top) (ht : top < 65536) : upTo top (BitVec.ofNat 16 n) = some n := by
  have hn : (BitVec.ofNat 16 n).toNat = n := Nat.mod_eq_of_lt (by omega)
  exact upTo_eq.2 ⟨hn.symm, by omega⟩

theorem within_ofNat {lo hi n : Nat} (h : lo ≤ n ∧ n ≤ hi) (ht : hi < 65536) :
    within lo hi (BitVec.ofNat 16 n) = some n := by
  have hn : (BitVec.ofNat 16 n).toNat = n := Nat.mod_eq_of_lt (by omega)
  exact within_eq.2 ⟨hn.symm, by omega⟩

theorem signedWithin_ofInt {lo hi x : Int} (h : lo ≤ x ∧ x ≤ hi) (hlo : -32768 ≤ lo) (hhi : hi ≤ 32767) :
    signedWithin lo hi (BitVec.ofInt 16 x) = some x := by
  have hx : (BitVec.ofInt 16 x).toInt = x := by
    rw [BitVec.toInt_ofInt]
    exact Int.bmod_eq_of_le (by omega) (by omega)
  exact signedWithin_eq.2 ⟨hx.symm, by omega⟩

/-! ### Payloads that give no fields -/

/-- A word above a number is no code up to it. -/
theorem ne_code {w : Word} {top : Nat} (h : top < w.toNat) {n : Nat} (hn : n ≤ top := by decide) :
    w ≠ BitVec.ofNat 16 n := by
  rintro rfl
  have := (Nat.mod_le n (2 ^ 16)).trans hn
  rw [BitVec.toNat_ofNat] at h
  omega

theorem modeOf_of_lt {w : Word} (h : 3 < w.toNat) : modeOf w = none := by
  simp [modeOf, ne_code h (n := 0), ne_code h (n := 1), ne_code h (n := 2), ne_code h (n := 3)]

theorem orientationOf_of_lt {w : Word} (h : 1 < w.toNat) : orientationOf w = none := by
  simp [orientationOf, ne_code h (n := 0), ne_code h (n := 1)]

theorem yesNo_of_lt {w : Word} (h : 1 < w.toNat) : yesNo w = none := by
  simp [yesNo, ne_code h (n := 0), ne_code h (n := 1)]

/-- A payload that is not one word, or whose word is above the last code. -/
theorem oneField_of_bad {α : Type} {f : Word → Option α} {top : Nat} (hf : ∀ {w : Word}, top < w.toNat → f w = none)
    {p : List Word} (h : p.length ≠ 1 ∨ ∃ w : Word, p = [w] ∧ top < w.toNat) : oneField f p = none := by
  unfold oneField
  split
  · obtain h | ⟨w, e, hw⟩ := h
    · exact absurd rfl h
    · cases e
      exact hf hw
  · rfl

theorem noField_of_length {p : List Word} (h : p.length ≠ 0) : noField p = none := by
  unfold noField
  split
  · exact absurd rfl h
  · rfl

theorem profileFields_of_length {p : List Word} (h : p.length ≠ 4) : profileFields p = none := by
  unfold profileFields
  split
  · exact absurd rfl h
  · rfl

theorem lensCalFields_of_length {p : List Word} (h : p.length ≠ 9) : lensCalFields p = none := by
  unfold lensCalFields
  split
  · exact absurd rfl h
  · rfl

/-- A breakpoint takes two words. -/
theorem breakpointsOf_length {value : Word → Option Int} {p : List Word} {t : List Breakpoint}
    (h : breakpointsOf value p = some t) : p.length = 2 * t.length := by
  fun_induction breakpointsOf value p generalizing t with
  | case1 => cases h; rfl
  | case2 => cases h
  | case3 w x rest ih =>
    simp only [Option.bind_eq_bind, Option.bind_eq_some_iff, Option.pure_def, Option.some.injEq] at h
    obtain ⟨_, _, _, _, more, hm, rfl⟩ := h
    have := ih hm
    simp only [List.length_cons]
    omega

theorem focusTableFields_of_length {p : List Word} (h : p.length ≠ 16) : focusTableFields p = none := by
  rw [Option.eq_none_iff_forall_ne_some]
  intro t ht
  simp only [focusTableFields, Option.bind_eq_bind, Option.bind_eq_some_iff] at ht
  obtain ⟨table, hp, ht⟩ := ht
  have hlen := breakpointsOf_length hp
  split at ht
  · rename_i ok
    obtain ⟨eight, _⟩ := ok
    omega
  · cases ht

/-! ### The fields of the settings -/

/-- Breakpoints within their ranges are read back (R96). -/
theorem breakpointsOf_words {t : List Breakpoint}
    (h : ∀ b ∈ t, -160 ≤ b.t ∧ b.t ≤ 600 ∧ -500 ≤ b.value ∧ b.value ≤ 500) :
    breakpointsOf (signedWithin (-500) 500) (t.flatMap fun b => [BitVec.ofInt 16 b.t, BitVec.ofInt 16 b.value])
      = some t := by
  induction t with
  | nil => rfl
  | cons b t ih =>
    obtain ⟨tlo, thi, vlo, vhi⟩ := h b List.mem_cons_self
    have rest := ih fun c hc => h c (List.mem_cons_of_mem _ hc)
    simp only [List.flatMap_cons, List.cons_append, List.nil_append, breakpointsOf, rest,
      signedWithin_ofInt ⟨tlo, thi⟩ (by decide) (by decide), signedWithin_ofInt ⟨vlo, vhi⟩ (by decide) (by decide)]
    rfl

/-- FOCUS_TABLE takes eight breakpoints in range with rising temperatures, and no others of them (R96). -/
theorem focusTableFields_words {t : List Breakpoint} (eight : t.length = 8)
    (h : ∀ b ∈ t, -160 ≤ b.t ∧ b.t ≤ 600 ∧ -500 ≤ b.value ∧ b.value ≤ 500) :
    focusTableFields (t.flatMap fun b => [BitVec.ofInt 16 b.t, BitVec.ofInt 16 b.value])
      = if rising (t.map (·.t)) = true then some t else none := by
  simp [focusTableFields, breakpointsOf_words h, eight]

theorem profileFields_eq_some {n start top ramp : Word} {m : Nat} {x : Profile} :
    profileFields [n, start, top, ramp] = some (m, x) ↔
      (m = n.toNat ∧ x = ⟨start.toNat, top.toNat, ramp.toNat⟩) ∧
        n.toNat ≤ 3 ∧ 100 ≤ start.toNat ∧ start.toNat ≤ 2000 ∧ start.toNat ≤ top.toNat ∧ top.toNat ≤ 4000
          ∧ ramp.toNat ≤ 2000 := by
  simp only [profileFields, Option.bind_eq_bind, Option.bind_eq_some_iff, Option.pure_def, Option.some.injEq,
    Prod.mk.injEq, upTo_eq, within_eq]
  constructor
  · rintro ⟨_, ⟨rfl, hn⟩, _, ⟨rfl, hs⟩, _, ⟨rfl, ht⟩, _, ⟨rfl, hr⟩, rfl, rfl⟩
    exact ⟨⟨rfl, rfl⟩, hn, hs.1, hs.2, ht.1, ht.2, hr⟩
  · rintro ⟨⟨rfl, rfl⟩, hn, hs, hs', ht, ht', hr⟩
    exact ⟨_, ⟨rfl, hn⟩, _, ⟨rfl, hs, hs'⟩, _, ⟨rfl, ht, ht'⟩, _, ⟨rfl, hr⟩, rfl, rfl⟩

/-- LENS_CAL: a record in its ranges is read back (R60). -/
theorem lensCalFields_words {a : Axis} {cal : Cal} (sound : cal.Sound a) (plo : -4096 ≤ cal.pps) (phi : cal.pps ≤ 4096)
    (hp : cal.homingProfile ≤ 3) (tlo : 1 ≤ cal.timeout) (thi : cal.timeout ≤ 60) (hs : cal.slipTolerance ≤ 255) :
    lensCalFields [axisWord a, BitVec.ofNat 16 cal.max, BitVec.ofNat 16 cal.backlash,
        BitVec.ofNat 16 (dirCode cal.approach), BitVec.ofInt 16 cal.pps, BitVec.ofNat 16 cal.reference,
        BitVec.ofNat 16 cal.homingProfile, BitVec.ofNat 16 cal.timeout, BitVec.ofNat 16 cal.slipTolerance]
      = some (a, cal) := by
  have top := sound.max.2
  have pps : ¬ (cal.pps = 0 ∧ a ≠ .f) := fun ⟨h0, ha⟩ => sound.pps ha h0
  simp only [lensCalFields, axisOf_axisWord, within_ofNat sound.max (by decide),
    upTo_ofNat sound.backlash (by decide), dirOf_dirCode, signedWithin_ofInt ⟨plo, phi⟩ (by decide) (by decide),
    upTo_ofNat sound.reference (by omega), upTo_ofNat hp (by decide), within_ofNat ⟨tlo, thi⟩ (by decide),
    upTo_ofNat hs (by decide), Option.bind_eq_bind, Option.bind_some, if_neg pps]

/-! ### PICTURE_MODE, INSTALL, FOCUS_UPKEEP, FOCUS_TABLE, PLACE_CANCEL, PROFILE and LENS_CAL -/

/-- What INSTALL asks of the axes (R19). -/
theorem anyAxisMoves_iff (s : State) :
    (allAxes.any fun a => (s.axis a).phase.inMove || (s.axis a).phase.isHoming) = true
    ↔ ∃ a, (s.axis a).phase.inMove = true ∨ (s.axis a).phase.isHoming = true := by
  have all : ∀ a : Axis, a ∈ allAxes := fun a => by cases a <;> decide
  simp only [List.any_eq_true, Bool.or_eq_true, all, true_and]

section Bodies

variable {s : State} (hs : s.startup.part ≠ .starting)

include hs

theorem installBody_of_still {p : List Word} {o : Orientation} (hp : oneField orientationOf p = some o)
    (h : ∀ a, (s.axis a).phase.inMove = false ∧ (s.axis a).phase.isHoming = false) :
    installBody p s = ({ s with picture := { s.picture with orientation := o } }, .done) := by
  rw [installBody, readyThen_of_some hs hp, if_neg]
  rw [anyAxisMoves_iff]
  rintro ⟨a, moving⟩
  simp [h a] at moving

theorem installBody_of_moving {p : List Word} {o : Orientation} (hp : oneField orientationOf p = some o)
    (h : ∃ a, (s.axis a).phase.inMove = true ∨ (s.axis a).phase.isHoming = true) :
    installBody p s = (s, .refused .busy) := by
  rw [installBody, readyThen_of_some hs hp, if_pos ((anyAxisMoves_iff s).2 h)]

theorem lensCalBody_of_moving {p : List Word} {a : Axis} {cal : Cal} (hp : lensCalFields p = some (a, cal))
    (h : (s.axis a).phase.inMove = true ∨ (s.axis a).phase.isHoming = true) :
    lensCalBody p s = (s, .refused .busy) := by
  rw [lensCalBody, readyThen_of_some hs hp]
  simp only
  rw [if_pos (by simpa using h)]

theorem lensCalBody_of_still {p : List Word} {a : Axis} {cal : Cal} (hp : lensCalFields p = some (a, cal))
    (h : (s.axis a).phase.inMove = false ∧ (s.axis a).phase.isHoming = false) :
    lensCalBody p s = if (s.axis a).homed = true ∧ cal.max < (s.axis a).pos then (s, .refused .badState)
      else (s.setAxis a { s.axis a with cal := cal, ring := (s.axis a).ring.filter (· ≤ cal.max) }, .done) := by
  rw [lensCalBody, readyThen_of_some hs hp]
  simp only
  rw [if_neg (by simp [h])]

end Bodies

/-- Settles O50: the fields of each payload, then what the body does with them. -/
theorem readySettingsAreStored : Obligations.ReadySettingsAreStored := by
  intro s e p hs
  refine ⟨?_, ?_, ?_, ?_, ?_, ?_, ?_, ?_⟩
  · rintro m rfl executes
    exact exec_eq_ended rfl executes (readyThen_of_some hs (modeOf_modeCode m))
  · rintro o rfl executes
    have fields := orientationOf_orientationCode o
    exact ⟨fun still => exec_eq_ended rfl executes (installBody_of_still hs fields still),
      fun moving => exec_eq_ended rfl executes (installBody_of_moving hs fields moving)⟩
  · rintro on rfl executes
    exact exec_eq_ended rfl executes (readyThen_of_some hs (yesNo_flagWord on))
  · rintro t eight range rfl executes
    have fields := focusTableFields_words eight range
    refine ⟨fun rises => ?_, fun falls => ?_⟩
    · rw [if_pos rises] at fields
      exact exec_eq_ended rfl executes (readyThen_of_some hs fields)
    · rw [if_neg (by simp [falls])] at fields
      exact exec_eq_ended rfl executes (readyThen_of_none hs fields)
  · rintro rfl executes
    exact exec_eq_ended rfl executes (readyThen_of_some hs rfl)
  · rintro n start top ramp rfl executes
    refine ⟨fun ok => ?_, fun bad => ?_⟩
    · exact exec_eq_ended rfl executes (readyThen_of_some hs (profileFields_eq_some.2 ⟨⟨rfl, rfl⟩, ok⟩))
    · refine exec_eq_ended rfl executes (readyThen_of_none hs ?_)
      rw [Option.eq_none_iff_forall_ne_some]
      exact fun x hx => bad (profileFields_eq_some.1 hx).2
  · rintro a cal sound plo phi profile tlo thi slip rfl executes
    have fields := lensCalFields_words sound plo phi profile tlo thi slip
    refine ⟨fun moving => exec_eq_ended rfl executes (lensCalBody_of_moving hs fields moving),
      fun idle beyond => ?_, fun stands => ?_⟩
    · refine exec_eq_ended rfl executes ((lensCalBody_of_still hs fields (by rw [idle]; exact ⟨rfl, rfl⟩)).trans ?_)
      rw [if_pos ⟨by rw [AxisUnit.homed, idle]; rfl, beyond⟩]
    · have still : (s.axis a).phase.inMove = false ∧ (s.axis a).phase.isHoming = false := by
        rcases stands with h | h | ⟨h, _⟩ <;> rw [h] <;> exact ⟨rfl, rfl⟩
      have admitted : ¬ ((s.axis a).homed = true ∧ cal.max < (s.axis a).pos) := by
        rcases stands with h | h | ⟨_, within⟩
        · simp [AxisUnit.homed, Phase.homed, h]
        · simp [AxisUnit.homed, Phase.homed, h]
        · omega
      exact exec_eq_ended rfl executes ((lensCalBody_of_still hs fields still).trans (if_neg admitted))
  · intro c kind n row bad executes
    have length : n ≠ 1 → p.length ≠ n := by
      rintro hn
      rcases bad with h | ⟨w, rfl, _⟩
      · exact h
      · exact hn.symm
    simp only [List.mem_cons, Prod.mk.injEq, List.not_mem_nil, or_false] at row
    rcases row with ⟨rfl, rfl, rfl⟩ | ⟨rfl, rfl, rfl⟩ | ⟨rfl, rfl, rfl⟩ | ⟨rfl, rfl, rfl⟩ | ⟨rfl, rfl, rfl⟩ |
      ⟨rfl, rfl, rfl⟩ | ⟨rfl, rfl, rfl⟩
    · exact exec_eq_ended rfl executes (readyThen_of_none hs (oneField_of_bad modeOf_of_lt (by simpa using bad)))
    · exact exec_eq_ended rfl executes (readyThen_of_none hs (oneField_of_bad orientationOf_of_lt (by simpa using bad)))
    · exact exec_eq_ended rfl executes (readyThen_of_none hs (oneField_of_bad yesNo_of_lt (by simpa using bad)))
    · exact exec_eq_ended rfl executes (readyThen_of_none hs (focusTableFields_of_length (length (by decide))))
    · exact exec_eq_ended rfl executes (readyThen_of_none hs (noField_of_length (length (by decide))))
    · exact exec_eq_ended rfl executes (readyThen_of_none hs (profileFields_of_length (length (by decide))))
    · exact exec_eq_ended rfl executes (readyThen_of_none hs (lensCalFields_of_length (length (by decide))))

end Sys2Proof.Machine

/-! # The line tables and the bank exchange

The rules about the load bank and the promise of the tables, kept by every command; then the values after reset, the
three table messages, and the frame start's share in the placement and in the tables. -/

namespace Sys2Proof.Machine

/-! ### The load bank (R23, R25) -/

/-- Writing the load bank writes the two banks at most, and no register. -/
theorem TableStore.setLoadBank_eq (t : TableStore) (b : Bank) : t.setLoadBank b =
    { t with bankA := (t.setLoadBank b).bankA, bankB := (t.setLoadBank b).bankB } := by
  unfold TableStore.setLoadBank TableStore.setBank
  split <;> rfl

@[simp] theorem TableStore.setLoadBank_active (t : TableStore) (b : Bank) : (t.setLoadBank b).active = t.active := by
  rw [t.setLoadBank_eq b]

@[simp] theorem TableStore.setLoadBank_loadOpen (t : TableStore) (b : Bank) :
    (t.setLoadBank b).loadOpen = t.loadOpen := by rw [t.setLoadBank_eq b]

@[simp] theorem TableStore.setLoadBank_commit (t : TableStore) (b : Bank) : (t.setLoadBank b).commit = t.commit := by
  rw [t.setLoadBank_eq b]

@[simp] theorem TableStore.setLoadBank_auto (t : TableStore) (b : Bank) : (t.setLoadBank b).auto = t.auto := by
  rw [t.setLoadBank_eq b]

@[simp] theorem TableStore.setLoadBank_margins (t : TableStore) (b : Bank) : (t.setLoadBank b).margins = t.margins := by
  rw [t.setLoadBank_eq b]

@[simp] theorem TableStore.setLoadBank_mismatch (t : TableStore) (b : Bank) :
    (t.setLoadBank b).mismatch = t.mismatch := by rw [t.setLoadBank_eq b]

/-- Which bank is the load bank does not depend on AUTO. -/
theorem TableStore.setLoadBank_withAuto (t : TableStore) (b : Bank) (auto : Bool) :
    TableStore.setLoadBank { t with auto := auto } b = { t.setLoadBank b with auto := auto } := by
  unfold TableStore.setLoadBank TableStore.setBank
  cases otherBank t.active <;> rfl

/-- Both banks stay in canonical form where the bank written has it. -/
theorem TableStore.setLoadBank_wf {t : TableStore} {b : Bank} (hA : bankWf t.bankA) (hB : bankWf t.bankB)
    (hb : bankWf b) : bankWf (t.setLoadBank b).bankA ∧ bankWf (t.setLoadBank b).bankB := by
  unfold TableStore.setLoadBank TableStore.setBank
  split
  · exact ⟨hb, hB⟩
  · exact ⟨hA, hb⟩

theorem State.tableBusy_iff (s : State) :
    s.tableBusy = true ↔ s.table.commit.isSome = true ∨ s.gen.running.isSome = true := by
  simp [State.tableBusy]

/-- Not busy: no commit is pending and no generation runs. -/
theorem State.not_tableBusy_iff (s : State) :
    ¬ s.tableBusy = true ↔ s.table.commit = none ∧ s.gen.running = none := by
  simp [State.tableBusy]

/-! ### The promise of the tables, operation by operation -/

/-- The promise rests on the table store and the generator alone. -/
theorem State.TablesSound.of_same {s t : State} (h : s.TablesSound) (ht : t.table = s.table := by rfl)
    (hg : t.gen = s.gen := by rfl) : t.TablesSound := by
  obtain ⟨bankA, bankB, active, committed, opened, host, corners, margins⟩ := h
  rw [← ht] at bankA bankB active committed opened host corners margins
  rw [← hg] at committed opened corners
  exact ⟨bankA, bankB, active, committed, opened, host, corners, margins⟩

theorem State.TablesSound.ripple {s t : State} (h : s.TablesSound) (hr : s.Ripple t) : t.TablesSound :=
  h.of_same hr.table hr.gen

theorem State.TablesSound.near {s t : State} (h : s.TablesSound) (hn : s.Near t) : t.TablesSound := h.ripple hn.ripple

/-- The reset bank lists no line, so it passes validation with margins of 0 (R24). -/
theorem State.tablesSound_of_reset {s : State} (ht : s.table = resetTable) (hg : s.gen = resetGen) :
    s.TablesSound := by
  have reset : State.reset.TablesSound :=
    ⟨bankWf_empty _ _, bankWf_empty _ _, rfl, by simp [State.reset, resetTable], by simp [State.reset, resetTable],
      by simp [State.reset, resetTable], by simp [State.reset, resetTable, resetGen], rfl⟩
  exact reset.of_same ht hg

/-- The mismatch run is no part of the promise. -/
theorem State.TablesSound.withMismatch {s : State} (h : s.TablesSound) (x : Option Size) :
    State.TablesSound { s with table := { s.table with mismatch := x } } :=
  ⟨h.bankA, h.bankB, h.active, h.committed, h.opened, h.host, h.corners, h.margins⟩

/-- While no commit is pending nothing rests on what the load bank holds. -/
theorem State.TablesSound.setLoadBank {s : State} (h : s.TablesSound) (free : s.table.commit = none) {b : Bank}
    (hb : bankWf b) : State.TablesSound { s with table := s.table.setLoadBank b } := by
  obtain ⟨bankA, bankB⟩ := TableStore.setLoadBank_wf h.bankA h.bankB hb
  refine ⟨bankA, bankB, ?_, ?_, ?_, ?_, ?_, ?_⟩
  · simpa using h.active
  · simp [free]
  · simpa using h.opened
  · simp [free]
  · simpa using h.corners
  · simpa using h.margins

/-- Load-open is set, and AUTO cleared, where neither a commit nor a generation is under way (R26). -/
theorem State.TablesSound.opening {s : State} (h : s.TablesSound) (free : s.table.commit = none)
    (still : s.gen.running = none) :
    State.TablesSound { s with table := { s.table with loadOpen := true, auto := false } } where
  bankA := h.bankA
  bankB := h.bankB
  active := h.active
  committed := h.committed
  opened _ := ⟨rfl, still⟩
  host cond hc := by simp [free] at hc
  corners := by simp [still]
  margins := h.margins

/-- A bank that passes validation becomes a pending commit, the host's with load-open set (R30, R50). -/
theorem State.TablesSound.committing {s : State} (h : s.TablesSound) (still : s.gen.running = none)
    (valid : s.table.loadBank.validate = none) {cond : ParityCond} (host : cond ≠ .any → s.table.loadOpen = true) :
    State.TablesSound { s with table := { s.table with commit := some cond } } where
  bankA := h.bankA
  bankB := h.bankB
  active := h.active
  committed _ := ⟨valid, still⟩
  opened := h.opened
  host := by
    rintro _ ⟨rfl⟩
    exact host
  corners := h.corners
  margins := h.margins

/-- A generation runs with a corner set stored and the load bank closed (R43). -/
theorem State.TablesSound.generating {s : State} (h : s.TablesSound) (free : s.table.commit = none) (c : CornerSet)
    (z : Size) (auto : Bool) :
    State.TablesSound { s with
      table := { s.table with auto := auto, loadOpen := false }
      gen := { s.gen with corners := some c, running := some z } } where
  bankA := h.bankA
  bankB := h.bankB
  active := h.active
  committed hc := by simp [free] at hc
  opened hc := nomatch hc
  host cond hc := by simp [free] at hc
  corners _ := rfl
  margins := h.margins

/-- The generator comes to rest (R50, R52). -/
theorem State.TablesSound.resting {s : State} (h : s.TablesSound) (o : GenOutcome) :
    State.TablesSound { s with gen := { s.gen with running := none, outcome := o } } where
  bankA := h.bankA
  bankB := h.bankB
  active := h.active
  committed hc := ⟨(h.committed hc).1, rfl⟩
  opened hc := ⟨(h.opened hc).1, rfl⟩
  host := h.host
  corners hc := h.corners (hc.imp_right fun e => nomatch e)
  margins := h.margins

/-- A start clears the load bank first (R43). -/
theorem State.TablesSound.startGeneration {s : State} (h : s.TablesSound) (free : s.table.commit = none)
    {c : CornerSet} (hc : s.gen.corners = some c) (z : Size) : (s.startGeneration z).TablesSound := by
  have cleared := h.setLoadBank free (bankWf_empty z .generated)
  refine (cleared.generating (by simpa using free) c z s.table.auto).of_same ?_ ?_
  · simp [State.startGeneration]
  · simp [State.startGeneration, hc]

/-- A request changes nothing, or starts a generation with the corner set stored (the table of R44). -/
theorem State.requestGeneration_cases (s : State) (z : Size) : s.requestGeneration z = s
    ∨ ∃ c, s.gen.corners = some c ∧ s.requestGeneration z = s.startGeneration z := by
  unfold State.requestGeneration
  split
  · exact .inl rfl
  · exact .inr ⟨_, by assumption, rfl⟩
  · split
    · exact .inl rfl
    · exact .inr ⟨_, by assumption, rfl⟩

theorem State.TablesSound.requestGeneration {s : State} (h : s.TablesSound) (free : s.table.commit = none)
    (z : Size) : (s.requestGeneration z).TablesSound := by
  rcases s.requestGeneration_cases z with e | ⟨c, hc, e⟩
  · rw [e]; exact h
  · rw [e]; exact h.startGeneration free hc z

/-- The load bank that the swap makes active had passed validation, and its margins are taken (R30, R38). -/
theorem State.TablesSound.takeCommit {s : State} (h : s.TablesSound) (parity : Parity) :
    (s.takeCommit parity).TablesSound := by
  unfold State.takeCommit
  split
  · rename_i cond hc
    obtain ⟨valid, _⟩ := h.committed (by simp [hc])
    split
    · exact ⟨h.bankA, h.bankB, valid, fun e => (nomatch e), fun e => (nomatch e), fun _ e => (nomatch e), h.corners,
        rfl⟩
    · exact h
  · exact h

/-- Under AUTO only a generation's commit can be pending, and every frame start takes that one (R31, R50). -/
theorem State.TablesSound.takeCommit_free {s : State} (h : s.TablesSound) {parity : Parity}
    (auto : (s.takeCommit parity).table.auto = true) : (s.takeCommit parity).table.commit = none := by
  unfold State.takeCommit at auto ⊢
  split
  · rename_i cond hc
    split
    · rfl
    · rename_i waits
      have host : cond ≠ .any := by rintro rfl; exact waits rfl
      simp [hc, waits, (h.opened (h.host cond hc host)).1] at auto
  · assumption

/-- The size check requests a generation under AUTO alone, when no commit is pending (R35, R44). -/
theorem State.TablesSound.checkSize {s : State} (h : s.TablesSound)
    (free : s.table.auto = true → s.table.commit = none) : s.checkSize.TablesSound := by
  unfold State.checkSize
  split
  · exact h.withMismatch none
  · exact h.withMismatch none
  · exact h
  · rename_i z _
    split
    · exact h
    · have run : (State.raise { s with table := { s.table with mismatch := some z } } .sizeMismatch).TablesSound :=
        (h.withMismatch (some z)).of_same
      simp only
      split
      · rename_i auto
        exact run.requestGeneration (free auto) z
      · exact run

/-! ### The tables at a frame start -/

/-- The state at a frame start after the link receiver's part and the swap. -/
def State.exchanged (s : State) (parity : Parity) (z : Size) : State := (s.linkFrameStart parity z).takeCommit parity

/-- The state at a frame start that the placement tracker finds: the size check made, SIZE and HOST decided. -/
def State.sizeChecked (s : State) (parity : Parity) (z : Size) : State :=
  (s.exchanged parity z).checkSize.frameCauses (s.exchanged parity z).sizeCheck

/-- The tracker's part, then the drive step and the output frame, end the frame start. -/
theorem State.inputFrameStart_eq_placed (s : State) (parity : Parity) (z : Size) : s.inputFrameStart parity z =
    ((s.sizeChecked parity z).placeFrameStart (s.sizeChecked parity z).handedMargins).driveStep.beginFrame parity :=
  rfl

theorem State.placeFrameStart_tables (s : State) (m : Margins) :
    (s.placeFrameStart m).table = s.table ∧ (s.placeFrameStart m).gen = s.gen := by
  obtain ⟨_, _, _, e⟩ := s.placeFrameStart_frame m
  rw [e]
  exact ⟨rfl, rfl⟩

/-- The table store and the generator after a frame start are as the swap and then the size check leave them. -/
theorem State.inputFrameStart_tables (s : State) (parity : Parity) (z : Size) :
    (s.inputFrameStart parity z).table = (s.exchanged parity z).checkSize.table
      ∧ (s.inputFrameStart parity z).gen = (s.exchanged parity z).checkSize.gen :=
  (s.sizeChecked parity z).placeFrameStart_tables _

theorem State.TablesSound.inputFrameStart {s : State} (h : s.TablesSound) (parity : Parity) (z : Size) :
    (s.inputFrameStart parity z).TablesSound := by
  obtain ⟨table, gen⟩ := s.inputFrameStart_tables parity z
  obtain ⟨_, _, _, _, e⟩ := s.linkFrameStart_frame parity z
  have received : (s.linkFrameStart parity z).TablesSound := by rw [e]; exact h.of_same
  exact ((received.takeCommit parity).checkSize received.takeCommit_free).of_same table gen

/-! ### The tables under the other commands -/

/-- A generation's end meets no pending commit and a closed load bank; success makes a bank that passed validation
pending (R49, R50). -/
theorem State.TablesSound.endGeneration {s : State} (h : s.TablesSound) : s.endGeneration.TablesSound := by
  unfold State.endGeneration
  split
  · rename_i z c running corners
    have free : s.table.commit = none := by
      rw [Option.eq_none_iff_forall_ne_some]
      intro cond hc
      have := (h.committed (by simp [hc])).2
      simp [running] at this
    have filled : bankWf { s.table.loadBank with records := (generate c z).1 } := generate_wf c z _ _
    have ended := (h.setLoadBank free filled).resting (generate c z).2
    simp only
    split
    · rename_i success
      have valid := generate_success success s.table.loadBank.size s.table.loadBank.source
      refine (ended.committing (cond := .any) rfl ?_ (fun any => absurd rfl any)).of_same
      simpa using valid
    · exact ended.of_same
    · exact ended
  · exact h
  · exact h

/-- A run's records fit the bank (R27). -/
theorem tableRunFields_fits {p : List Word} {start : Nat} {recs : List LineRecord}
    (h : tableRunFields p = some (start, recs)) : start + recs.length ≤ Config.panelRows := by
  unfold tableRunFields at h
  split at h
  · cases h
  · simp only [Option.bind_eq_bind, Option.bind_eq_some_iff] at h
    obtain ⟨_, _, h⟩ := h
    split at h
    · rename_i ok
      obtain ⟨_, _, _, fits⟩ := ok
      cases h
      exact fits
    · cases h

theorem State.TablesSound.tableOpen {s : State} (h : s.TablesSound) (p : List Word) :
    (tableOpenBody p s).1.TablesSound := by
  refine readyThen_keeps h fun z _ => ?_
  simp only
  split
  · exact h
  · rename_i idle
    obtain ⟨free, still⟩ := s.not_tableBusy_iff.1 idle
    exact (h.setLoadBank free (bankWf_empty z .loaded)).opening (by simpa using free) still

theorem State.TablesSound.loadBank_wf {s : State} (h : s.TablesSound) : bankWf s.table.loadBank := by
  unfold TableStore.loadBank TableStore.bank
  split
  · exact h.bankA
  · exact h.bankB

theorem State.TablesSound.tableRun {s : State} (h : s.TablesSound) (p : List Word) :
    (tableRunBody p s).1.TablesSound := by
  refine readyThen_keeps h fun (start, recs) fields => ?_
  simp only
  split
  · exact h
  · rename_i idle
    split
    · exact h
    · exact h.setLoadBank (s.not_tableBusy_iff.1 idle).1 (bankWriteRun_wf h.loadBank_wf (tableRunFields_fits fields))

theorem State.TablesSound.tableCommit {s : State} (h : s.TablesSound) (p : List Word) :
    (tableCommitBody p s).1.TablesSound := by
  refine readyThen_keeps h fun cond _ => ?_
  simp only
  split
  · exact h
  · rename_i idle
    split
    · exact h
    · rename_i opened
      split
      · exact h
      · rename_i valid
        exact h.committing (s.not_tableBusy_iff.1 idle).2 valid fun _ => by simpa using opened

theorem State.TablesSound.cornersTaken {s : State} (h : s.TablesSound) (p : List Word) :
    (cornersBody p s).1.TablesSound := by
  refine readyThen_keeps h fun c _ => ?_
  simp only
  split
  · exact h
  · rename_i idle
    split
    · exact h
    · rename_i z _
      split
      · exact h
      · obtain ⟨free, _⟩ := s.not_tableBusy_iff.1 idle
        have cleared := h.setLoadBank free (bankWf_empty z .generated)
        exact (cleared.generating (by simpa using free) c z true).of_same (by
          rw [State.startGeneration, TableStore.setLoadBank_withAuto])

theorem State.softReset_tablesSound (s : State) : s.softReset.TablesSound := by
  rw [State.softReset_blocks]
  exact State.tablesSound_of_reset rfl rfl

/-- A fan update reaches neither the tables nor the generator (R132). -/
theorem State.TablesSound.fanUpdate {s : State} (h : s.TablesSound) : s.fanUpdate.TablesSound :=
  State.fanUpdate_keeps (fun _ h => h.of_same)
    (fun _ x h => State.judgeFan_keeps (fun _ _ _ h => h.of_same) (fun t y h => h.ripple (t.ripple_makePending y)) x h)
    (fun _ h => h.of_same) (fun _ _ h => h.of_same) h

theorem State.TablesSound.windowEnd {s : State} (h : s.TablesSound) (x : Sensor) (sample : Int) :
    (s.windowEnd x sample).TablesSound :=
  State.windowEnd_keeps (fun _ h => h.of_same) (fun t y h => h.ripple (t.ripple_makePending y))
    (fun _ _ h => h.of_same) (fun t _ h => h.ripple t.ripple_startUpkeep) (fun _ h => h.of_same) h

/-- Command by command: the table messages, CORNERS, the generation's end, the frame start and the resets; the rest
leave the tables and the generator. -/
theorem State.tablesSound_kept : State.Kept State.TablesSound where
  weaken _ h := h
  queue _ _ h := h.of_same
  ended _ _ _ _ h := h.of_same
  holding _ _ h := h.of_same
  powerOn _ _ _ := State.tablesSound_of_reset rfl rfl
  checkEnds s passed h := by obtain ⟨_, _, r⟩ := s.checkEnds_effect passed; exact h.of_same.ripple r
  frameStart _ parity z h := h.inputFrameStart parity z
  activeLine s xs h := by obtain ⟨_, _, e⟩ := s.activeLine_frame xs; rw [e]; exact h.of_same
  blankingSlot s words h := by obtain ⟨_, _, n⟩ := s.blankingSlot_frame words; exact h.of_same.near n
  linkLoss s h := by obtain ⟨_, _, _, r⟩ := s.linkLoss_effect; exact h.of_same.ripple r
  sendLine s h := by obtain ⟨_, e⟩ := s.sendLine_frame; rw [e]; exact h.of_same
  endFrame s h := by obtain ⟨_, _, e⟩ := s.endFrame_frame; rw [e]; exact h.of_same
  send s h := by obtain ⟨_, _, e⟩ := s.send_frame; rw [e]; exact h.of_same
  silent _ h := h.of_same
  fanUpdate _ h := h.fanUpdate
  tachPulse _ _ h := h.of_same
  windowEnd _ x sample h := h.windowEnd x sample
  stepAxis s a h := h.ripple (s.ripple_stepAxis a)
  pins _ _ _ h := h.of_same
  switchCloses s a h := h.ripple (s.ripple_switchCloses a)
  switchOpens s a h := h.near (s.near_switchOpens a)
  boundReached s a h := h.ripple (s.ripple_boundReached a)
  legTimeout s a h := h.ripple (s.ripple_legTimeout a)
  driverFault s a h := h.ripple (s.ripple_enterFault a _)
  endGeneration _ h := h.endGeneration
  softReset s _ := s.softReset_tablesSound
  stop s p h := h.near (stopBody_effect p s)
  lock s p h := by obtain ⟨_, n⟩ := lockBody_effect p s; exact h.of_same.near n
  unlock s p h := by obtain ⟨_, n⟩ := unlockBody_effect p s; exact h.of_same.near n
  clear s p h := by obtain ⟨_, e⟩ := clearBody_frame p s; rw [e]; exact h.of_same
  lower s p h := by obtain ⟨_, r⟩ := lowerBody_effect p s; exact h.of_same.ripple r
  eventAck s p h := by obtain ⟨_, e⟩ := eventAckBody_frame p s; rw [e]; exact h.of_same
  move s p h := h.ripple (moveBody_effect p s)
  hold s p h := h.ripple (holdBody_effect p s)
  resume s p h := h.ripple (resumeBody_effect p s)
  returnMove s p h := h.ripple (returnBody_effect p s)
  home s p h := h.ripple (homeBody_effect p s)
  place s p h := h.ripple (placeBody_effect p s)
  placeCancel s p h := by obtain ⟨_, e⟩ := placeCancelBody_frame p s; rw [e]; exact h.of_same
  install s p h := by obtain ⟨_, e⟩ := installBody_frame p s; rw [e]; exact h.of_same
  pictureMode s p h := by obtain ⟨_, e⟩ := pictureModeBody_frame p s; rw [e]; exact h.of_same
  tableOpen _ p h := h.tableOpen p
  tableRun _ p h := h.tableRun p
  tableCommit _ p h := h.tableCommit p
  corners _ p h := h.cornersTaken p
  lensCal s p h := by obtain ⟨_, e⟩ := lensCalBody_frame p s; rw [e]; exact h.of_same
  profile s p h := by obtain ⟨_, e⟩ := profileBody_frame p s; rw [e]; exact h.of_same
  focusTable s p h := by obtain ⟨_, e⟩ := focusTableBody_frame p s; rw [e]; exact h.of_same
  focusUpkeep s p h := by obtain ⟨_, e⟩ := focusUpkeepBody_frame p s; rw [e]; exact h.of_same
  sensorSet s p h := by obtain ⟨_, e⟩ := sensorSetBody_frame p s; rw [e]; exact h.of_same
  thresholds s p h := by obtain ⟨_, e⟩ := thresholdsBody_frame p s; rw [e]; exact h.of_same
  brightness s p h := by obtain ⟨_, e⟩ := brightnessBody_frame p s; rw [e]; exact h.of_same
  fanCurve s p h := by obtain ⟨_, e⟩ := fanCurveBody_frame p s; rw [e]; exact h.of_same
  fanLimits s p h := by obtain ⟨_, e⟩ := fanLimitsBody_frame p s; rw [e]; exact h.of_same
  quiet s p h := by obtain ⟨_, e⟩ := quietBody_frame p s; rw [e]; exact h.of_same
  levels s p h := by obtain ⟨_, r⟩ := levelsBody_effect p s; exact h.of_same.ripple r
  actions s p h := by obtain ⟨_, r⟩ := actionsBody_effect p s; exact h.of_same.ripple r
  eventMask s p h := by obtain ⟨_, e⟩ := eventMaskBody_frame p s; rw [e]; exact h.of_same
  queryCounters s p h := by obtain ⟨_, _, _, e⟩ := countersBody_frame p s; rw [e]; exact h.of_same
  queryCause s p h := by obtain ⟨_, e⟩ := causeBody_frame p s; rw [e]; exact h.of_same

/-- Settles O19: the promise of the tables is kept by each command's effect. -/
theorem activeBankIsValidated : Obligations.ActiveBankIsValidated :=
  fun _ _ sound hstep => State.tablesSound_kept.step sound hstep

end Sys2Proof.Machine

namespace Sys2Proof.Machine

/-! ### The values after power-on reset -/

/-- Every flag is masked in after power-on (R171, R176). -/
theorem powerOnSender_mask (e : EventFlag) : powerOnSender.mask.getLsbD (flagBit e) = true := by
  cases e with
  | moveDone a | stopped a | axisFault a | slip a | homeDone a | homeFailed a => cases a <;> decide
  | _ => decide

/-- Both banks are never-committed ones: no line is listed, so every line is DARK (R24). -/
theorem resetTable_bank (i : BankId) : resetTable.bank i = resetBank := by cases i <;> rfl

theorem bankRecord_resetBank (j : Nat) : bankRecord resetBank j = darkRecord := rfl

theorem State.reset_axis (a : Axis) : State.reset.axis a = powerOnAxis a := by cases a <;> rfl

theorem State.reset_sensor (x : Sensor) : State.reset.sensor x = powerOnSensor x := by cases x <;> rfl

theorem State.reset_fan (x : Fan) : State.reset.fan x = powerOnFan x := by cases x <;> rfl

theorem resetProtection_pending (x : Source) : resetProtection.pending.get x = false := by cases x <;> rfl

/-- Settles O3: block by block, each the constant that the resets use. -/
theorem resetHoldsPowerOnValues : Obligations.ResetHoldsPowerOnValues := by
  have bank (i : BankId) : (State.reset.table.bank i).size = ⟨3840, 2160⟩
      ∧ (State.reset.table.bank i).source = .loaded
      ∧ ∀ j, (bankRecord (State.reset.table.bank i) j).kind = 0 := by
    have reset : State.reset.table.bank i = resetBank := resetTable_bank i
    rw [reset]
    exact ⟨rfl, rfl, fun j => congrArg LineRecord.kind (bankRecord_resetBank j)⟩
  have axis (a : Axis) : (State.reset.axis a).phase = .unhomed ∧ (State.reset.axis a).pos = 0
      ∧ (State.reset.axis a).locked = false ∧ (State.reset.axis a).ring = []
      ∧ (State.reset.axis a).lastEnd = .none := by
    rw [State.reset_axis]
    exact ⟨rfl, rfl, rfl, rfl, rfl⟩
  have sensor (x : Sensor) : (State.reset.sensor x).window = 50 ∧ (State.reset.sensor x).pend = none
      ∧ (State.reset.sensor x).raw = none ∧ (State.reset.sensor x).reading = none
      ∧ (State.reset.sensor x).high = false ∧ (State.reset.sensor x).fault = false := by
    rw [State.reset_sensor]
    exact ⟨rfl, rfl, rfl, rfl, rfl, rfl⟩
  have fan (x : Fan) : State.reset.fan x = { State.reset.fan x with
      state := .stopped, duty := 0, spin := 0, history := [0, 0, 0, 0, 0], count := 0, speed := 0, stallRun := 0
      recovery := 0, lastCurve := 0, lastFF := 0, lastDemand := 0, readingUsed := 0 } := by
    rw [State.reset_fan]
    rfl
  refine ⟨rfl, rfl, rfl, rfl, rfl, rfl, rfl, rfl, rfl, rfl, rfl, rfl, powerOnSender_mask, rfl, rfl, rfl, rfl, rfl, rfl,
    rfl, rfl, rfl, rfl, rfl, rfl, rfl, bank, rfl, axis, rfl, rfl, rfl, rfl, rfl, rfl, sensor, rfl, rfl, rfl, rfl,
    rfl, rfl, rfl, fan, rfl, rfl, rfl, resetProtection_pending, rfl, rfl, rfl, rfl⟩

/-! ### The table messages (R26, R27, R29, R30) -/

/-- TABLE_OPEN takes a size within the fixed formats, and no other (R26). -/
theorem tableOpenFields_words (w h : Word) : tableOpenFields [w, h] =
    if 640 ≤ w.toNat ∧ w.toNat ≤ 3840 ∧ 360 ≤ h.toNat ∧ h.toNat ≤ 2160 then some ⟨w.toNat, h.toNat⟩ else none := by
  by_cases hw : 640 ≤ w.toNat ∧ w.toNat ≤ 3840
  · by_cases hh : 360 ≤ h.toNat ∧ h.toNat ≤ 2160
    · simp [tableOpenFields, within, hw, hh]
    · simp [tableOpenFields, within, hw, hh]
  · simp [tableOpenFields, within, hw, ← and_assoc]

theorem tableOpenFields_of_length {p : List Word} (h : p.length ≠ 2) : tableOpenFields p = none := by
  unfold tableOpenFields
  split
  · exact absurd rfl h
  · rfl

/-- A line record takes eleven words (spec 10.8). -/
theorem recordsOf_length {p : List Word} {rs : List LineRecord} (h : recordsOf p = some rs) :
    p.length = 11 * rs.length := by
  fun_induction recordsOf p generalizing rs with
  | case1 => cases h; rfl
  | case2 kind xl xr u1 u0 a1 a0 v1 v0 b1 b0 rest ih =>
    obtain ⟨more, hm, rfl⟩ := Option.map_eq_some_iff.1 h
    have := ih hm
    simp only [List.length_cons]
    omega
  | case3 => cases h

theorem tableRunFields_of_length {p : List Word} (h : p.length % 11 ≠ 1) : tableRunFields p = none := by
  cases p with
  | nil => rfl
  | cons start rest =>
    have short : recordsOf rest = none := by
      rw [Option.eq_none_iff_forall_ne_some]
      intro rs hrs
      have := recordsOf_length hrs
      simp only [List.length_cons] at h
      omega
    simp [tableRunFields, short]

/-- TABLE_RUN takes one to five records that fit the bank from its start line on (R27). -/
theorem tableRunFields_words {start : Word} {rest : List Word} {rs : List LineRecord} (h : recordsOf rest = some rs) :
    tableRunFields (start :: rest) =
      if 1 ≤ rs.length ∧ rs.length ≤ 5 ∧ start.toNat + rs.length ≤ 2160 then some (start.toNat, rs) else none := by
  have below : (1 ≤ rs.length ∧ rs.length ≤ 5 ∧ start.toNat < Config.panelRows
      ∧ start.toNat + rs.length ≤ Config.panelRows) ↔
      1 ≤ rs.length ∧ rs.length ≤ 5 ∧ start.toNat + rs.length ≤ 2160 := by
    simp only [Config.panelRows]
    omega
  simp only [tableRunFields, h, Option.bind_eq_bind, Option.bind_some, below]

theorem parityCondOf_condCode (cond : ParityCond) : parityCondOf (BitVec.ofNat 16 (condCode cond)) = some cond := by
  cases cond <;> rfl

theorem parityCondOf_eq {w : Word} {cond : ParityCond} (h : parityCondOf w = some cond) :
    w = BitVec.ofNat 16 (condCode cond) := by
  unfold parityCondOf at h
  repeat' split at h
  all_goals cases h
  all_goals assumption

theorem condField_of_ne {p : List Word} (h : ∀ cond : ParityCond, p ≠ [BitVec.ofNat 16 (condCode cond)]) :
    oneField parityCondOf p = none := by
  rw [Option.eq_none_iff_forall_ne_some]
  intro cond hc
  unfold oneField at hc
  split at hc
  · exact h cond (by rw [parityCondOf_eq hc])
  · cases hc

section TableBodies

variable {s : State} (hs : s.startup.part ≠ .starting)

include hs

theorem tableOpenBody_of_busy {p : List Word} {z : Size} (hp : tableOpenFields p = some z) (busy : s.tableBusy = true) :
    tableOpenBody p s = (s, .refused .busy) := by
  rw [tableOpenBody, readyThen_of_some hs hp, if_pos busy]

theorem tableOpenBody_of_free {p : List Word} {z : Size} (hp : tableOpenFields p = some z)
    (free : ¬ s.tableBusy = true) : tableOpenBody p s = ({ s with table :=
      { s.table.setLoadBank ⟨z, .loaded, []⟩ with loadOpen := true, auto := false } }, .done) := by
  rw [tableOpenBody, readyThen_of_some hs hp, if_neg free]

section TableRun

variable {p : List Word} {start : Nat} {rs : List LineRecord} (hp : tableRunFields p = some (start, rs))

include hp

theorem tableRunBody_of_busy (busy : s.tableBusy = true) : tableRunBody p s = (s, .refused .busy) :=
  (readyThen_of_some hs hp).trans (if_pos busy)

theorem tableRunBody_of_closed (free : ¬ s.tableBusy = true) (closed : s.table.loadOpen = false) :
    tableRunBody p s = (s, .refused .badState) :=
  (readyThen_of_some hs hp).trans ((if_neg free).trans (if_pos closed))

theorem tableRunBody_of_open (free : ¬ s.tableBusy = true) (opened : s.table.loadOpen = true) : tableRunBody p s =
    ({ s with table := s.table.setLoadBank (bankWriteRun s.table.loadBank start rs) }, .done) :=
  (readyThen_of_some hs hp).trans ((if_neg free).trans (if_neg (by simp [opened])))

end TableRun

section TableCommit

variable {p : List Word} {cond : ParityCond} (hp : oneField parityCondOf p = some cond)

include hp

theorem tableCommitBody_of_busy (busy : s.tableBusy = true) : tableCommitBody p s = (s, .refused .busy) := by
  rw [tableCommitBody, readyThen_of_some hs hp, if_pos busy]

theorem tableCommitBody_of_closed (free : ¬ s.tableBusy = true) (closed : s.table.loadOpen = false) :
    tableCommitBody p s = (s, .refused .badState) := by
  rw [tableCommitBody, readyThen_of_some hs hp, if_neg free, if_pos closed]

/-- A bank that fails validation is refused with its first failing line (R30). -/
theorem tableCommitBody_of_invalid (free : ¬ s.tableBusy = true) (opened : s.table.loadOpen = true) {j : Nat}
    {test : TableTest} (invalid : s.table.loadBank.validate = some (j, test)) :
    tableCommitBody p s = (s, .badTable j test) := by
  rw [tableCommitBody, readyThen_of_some hs hp, if_neg free, if_neg (by simp [opened]), invalid]

/-- One that passes waits as a pending commit (R29, R30). -/
theorem tableCommitBody_of_valid (free : ¬ s.tableBusy = true) (opened : s.table.loadOpen = true)
    (valid : s.table.loadBank.validate = none) :
    tableCommitBody p s = ({ s with table := { s.table with commit := some cond } }, .done) := by
  rw [tableCommitBody, readyThen_of_some hs hp, if_neg free, if_neg (by simp [opened]), valid]

end TableCommit

end TableBodies

theorem bankWriteRun_size (b : Bank) (j : Nat) (rs : List LineRecord) : (bankWriteRun b j rs).size = b.size := by
  induction rs generalizing b j with
  | nil => rfl
  | cons r rs ih => rw [bankWriteRun, ih, bankWrite_size]

theorem bankWriteRun_source (b : Bank) (j : Nat) (rs : List LineRecord) : (bankWriteRun b j rs).source = b.source := by
  induction rs generalizing b j with
  | nil => rfl
  | cons r rs ih => rw [bankWriteRun, ih, bankWrite_source]

/-- Settles O59: the fields of each payload, then what the body does with them. -/
theorem tableMessagesLoadTheOtherBank : Obligations.TableMessagesLoadTheOtherBank := by
  intro s e p hs
  simp only
  rw [← State.tableBusy_iff]
  refine ⟨?_, ?_, ?_, ?_, ?_, ?_⟩
  · rintro w h rfl executes
    have fields := tableOpenFields_words w h
    refine ⟨fun bad => ?_, fun ok busy => ?_, fun ok free => ?_⟩
    · rw [if_neg bad] at fields
      exact exec_eq_ended rfl executes (readyThen_of_none hs fields)
    · rw [if_pos ok] at fields
      exact exec_eq_ended rfl executes (tableOpenBody_of_busy hs fields busy)
    · rw [if_pos ok] at fields
      exact exec_eq_ended rfl executes (tableOpenBody_of_free hs fields free)
  · rintro start recs rfl eleven executes
    obtain ⟨rs, hrs, length, read⟩ := recordsOf_flatten recs eleven
    have fields := tableRunFields_words (start := start) hrs
    rw [length] at fields
    refine ⟨fun bad => ?_, fun ok busy => ?_, fun ok free closed => ?_, fun ok free opened wf => ?_⟩
    · rw [if_neg bad] at fields
      exact exec_eq_ended rfl executes (readyThen_of_none hs fields)
    · rw [if_pos ok] at fields
      exact exec_eq_ended rfl executes (tableRunBody_of_busy hs fields busy)
    · rw [if_pos ok] at fields
      exact exec_eq_ended rfl executes (tableRunBody_of_closed hs fields free closed)
    · rw [if_pos ok] at fields
      obtain ⟨_, _, fits⟩ := ok
      refine ⟨bankWriteRun s.table.loadBank start.toNat rs,
        exec_eq_ended rfl executes (tableRunBody_of_open hs fields free opened),
        bankWriteRun_size _ _ _, bankWriteRun_source _ _ _, fun j outside => ?_, ?_⟩
      · exact bankRecord_run_outside _ _ (by rwa [length])
      · intro i kind xl xr u1 u0 a1 a0 v1 v0 b1 b0 hi
        obtain ⟨hlt, hr⟩ := List.getElem?_eq_some_iff.1 (read _ _ _ _ _ _ _ _ _ _ _ _ hi)
        rw [bankRecord_run_inside wf hlt (by rw [length]; exact fits), hr]
        rfl
  · exact fun length executes => exec_eq_ended rfl executes (readyThen_of_none hs (tableOpenFields_of_length length))
  · exact fun length executes => exec_eq_ended rfl executes (readyThen_of_none hs (tableRunFields_of_length length))
  · exact fun ne executes => exec_eq_ended rfl executes (readyThen_of_none hs (condField_of_ne ne))
  · rintro cond rfl executes
    have fields : oneField parityCondOf [BitVec.ofNat 16 (condCode cond)] = some cond := parityCondOf_condCode cond
    refine ⟨fun busy => ?_, fun free closed => ?_,
      fun free opened wf => ⟨fun passes => ?_, fun j test fails first => ?_⟩⟩
    · exact exec_eq_ended rfl executes (tableCommitBody_of_busy hs fields busy)
    · exact exec_eq_ended rfl executes (tableCommitBody_of_closed hs fields free closed)
    · exact exec_eq_ended rfl executes
        (tableCommitBody_of_valid hs fields free opened ((Bank.validate_none wf).2 passes))
    · exact exec_eq_ended rfl executes
        (tableCommitBody_of_invalid hs fields free opened ((Bank.validate_some wf).2 ⟨fails, first⟩))

end Sys2Proof.Machine

namespace Sys2Proof.Machine

/-! ### What the stages of a frame start leave to the table store and the tracker -/

/-- The link receiver's part reaches neither the tables nor the generator, the placement or the axes. -/
theorem State.linkFrameStart_leaves (s : State) (parity : Parity) (z : Size) :
    (s.linkFrameStart parity z).table = s.table ∧ (s.linkFrameStart parity z).gen = s.gen
      ∧ (s.linkFrameStart parity z).place = s.place ∧ (s.linkFrameStart parity z).lens = s.lens := by
  obtain ⟨_, _, _, _, e⟩ := s.linkFrameStart_frame parity z
  rw [e]
  exact ⟨rfl, rfl, rfl, rfl⟩

/-- The link and the picture's mode stay from the link receiver's part on; the placement, the axes, the mode and the
generator are still those of before. -/
theorem State.exchanged_blocks (s : State) (parity : Parity) (z : Size) :
    (s.exchanged parity z).place = s.place ∧ (s.exchanged parity z).lens = s.lens
      ∧ (s.exchanged parity z).picture.mode = s.picture.mode
      ∧ (s.exchanged parity z).link = (s.inputFrameStart parity z).link ∧ (s.exchanged parity z).gen = s.gen := by
  obtain ⟨_, _, _, _, _, _, _, whole⟩ := s.inputFrameStart_frame parity z
  obtain ⟨_, _, _, swap⟩ := State.takeCommit_frame (s.linkFrameStart parity z) parity
  have mode : (s.linkFrameStart parity z).picture.mode = s.picture.mode := by rw [State.linkFrameStart_picture]
  obtain ⟨_, gen, place, lens⟩ := s.linkFrameStart_leaves parity z
  rw [State.exchanged, swap, whole]
  exact ⟨place, lens, mode, rfl, gen⟩

/-- The tracker finds the placement, the axes and the mode of before, with the link and the tables already as the frame
start leaves them. -/
theorem State.sizeChecked_blocks (s : State) (parity : Parity) (z : Size) :
    (s.sizeChecked parity z).place = s.place ∧ (s.sizeChecked parity z).lens = s.lens
      ∧ (s.sizeChecked parity z).picture.mode = s.picture.mode
      ∧ (s.sizeChecked parity z).link = (s.inputFrameStart parity z).link
      ∧ (s.sizeChecked parity z).table = (s.inputFrameStart parity z).table := by
  obtain ⟨place, lens, mode, link, _⟩ := s.exchanged_blocks parity z
  obtain ⟨_, _, _, _, check⟩ := (s.exchanged parity z).checkSize_frame
  rw [(s.inputFrameStart_tables parity z).1, ← place, ← lens, ← mode, ← link, State.sizeChecked, check]
  exact ⟨rfl, rfl, rfl, rfl, rfl⟩

/-! ### The digital offset (R88 to R91) -/

section Rounding

variable {target : Int} {u : AxisUnit} {raw : Int} (h : raw = rawOffset target u)

include h

/-- The raw offset is within half a pixel of the target less the optical offset (R89). -/
theorem rawOffset_near : 2 * |target * 1024 - ((u.pos : Int) - u.cal.reference) * u.cal.pps - raw * 1024| ≤ 1024 := by
  subst h
  exact roundDiv_near _ (by decide)

/-- A tie is rounded away from zero (R89). -/
theorem rawOffset_tie
    (tie : 2 * |target * 1024 - ((u.pos : Int) - u.cal.reference) * u.cal.pps - raw * 1024| = 1024) :
    |target * 1024 - ((u.pos : Int) - u.cal.reference) * u.cal.pps| < |raw * 1024| := by
  subst h
  exact roundDiv_tie _ tie

/-- The picture stands within half a pixel of its target where the raw offset is taken (R91). -/
theorem rawOffset_residue :
    2 * |((u.pos : Int) - u.cal.reference) * u.cal.pps + raw * 1024 - target * 1024| ≤ 1024 := by
  have near := rawOffset_near h
  rwa [← abs_neg, show -(target * 1024 - ((u.pos : Int) - u.cal.reference) * u.cal.pps - raw * 1024)
    = ((u.pos : Int) - u.cal.reference) * u.cal.pps + raw * 1024 - target * 1024 by ring] at near

end Rounding

theorem Placement.active_iff (p : Placement) : p.active = true ↔ p.state ≠ .none := by
  simp [Placement.active]

/-- Without a placement the offset is 0 (R89; assumption 15). -/
theorem State.frameOffset_of_none {s : State} (h : s.place.state = .none) (m : Margins) :
    s.frameOffset m = ⟨0, 0, 0, 0, false, false, m⟩ := by
  simp [State.frameOffset, Placement.active, h]

/-- With one, the raw offsets are held within the margins, each marked where that moves it (R89, R90). -/
theorem State.frameOffset_of_active {s : State} (h : s.place.state ≠ .none) (m : Margins) :
    s.frameOffset m =
      let dxRaw := rawOffset s.place.ox (s.axis .h)
      let dyRaw := rawOffset s.place.oy (s.axis .v)
      let dx := max (-(m.left : Int)) (min (m.right : Int) dxRaw)
      let dy := max (-(m.up : Int)) (min (m.down : Int) dyRaw)
      ⟨dxRaw, dyRaw, dx, dy, dx != dxRaw, dy != dyRaw, m⟩ := by
  have range : ∀ a b : Nat, -(a : Int) ≤ b := fun a b => by omega
  rw [State.frameOffset, if_pos ((Placement.active_iff _).2 h)]
  simp only [clampInt_eq (range _ _)]

@[simp] theorem State.frameOffset_margins (s : State) (m : Margins) : (s.frameOffset m).margins = m := by
  unfold State.frameOffset
  split <;> rfl

@[simp] theorem State.placeFrameStart_offset (s : State) (m : Margins) :
    (s.placeFrameStart m).place.frame = s.frameOffset m := by
  unfold State.placeFrameStart
  simp only
  split <;> rfl

/-- A clamped frame of a placement is counted, up to the counter's top (R90). -/
theorem State.placeFrameStart_offTarget (s : State) (m : Margins) :
    (s.placeFrameStart m).place.offTarget =
      if s.place.state ≠ .none ∧ ((s.frameOffset m).clampedX = true ∨ (s.frameOffset m).clampedY = true) then
        if s.place.offTarget < 65535 then s.place.offTarget + 1 else s.place.offTarget
      else s.place.offTarget := by
  simp only [← Placement.active_iff, ← Bool.or_eq_true, ← Bool.and_eq_true]
  unfold State.placeFrameStart
  simp only
  split <;> rfl

/-- The settle decision: SETTLED without a short move and within the margins, else PARTLY (R88). -/
theorem State.placeFrameStart_settles {s : State} (h : s.place.settleDue = true) (m : Margins) :
    (s.placeFrameStart m).sender.has .placeDone = true ∧ (s.placeFrameStart m).place.settleDue = false
      ∧ (s.placeFrameStart m).place.state = if s.place.shortV = false ∧ s.place.shortH = false
          ∧ (s.frameOffset m).clampedX = false ∧ (s.frameOffset m).clampedY = false then .settled else .partly := by
  unfold State.placeFrameStart
  simp only [h, if_true]
  refine ⟨Sender.has_raise _ _, rfl, ?_⟩
  simp [and_assoc]

/-- Settles O24: the tracker's part of the frame start, on the placement and the axes of before and the tables and the
link that the frame start leaves. -/
theorem unclampedOffsetIsWithinHalfAPixel : Obligations.UnclampedOffsetIsWithinHalfAPixel := by
  intro s parity w h released
  refine ⟨_, (exec_inputFrameStart _ _ _ s).trans (whenReleased_eq released _), ?_⟩
  obtain ⟨place, lens, mode, link, table⟩ := s.sizeChecked_blocks parity ⟨w.toNat, h.toNat⟩
  have axis (a : Axis) : s.axis a = (s.sizeChecked parity ⟨w.toNat, h.toNat⟩).axis a := by
    rw [State.axis, State.axis, lens]
  rw [← link, ← table, ← mode, axis, axis, ← place, State.inputFrameStart_eq_placed]
  generalize s.sizeChecked parity ⟨w.toNat, h.toNat⟩ = q
  have tracked (m : Margins) : ((q.placeFrameStart m).driveStep.beginFrame parity).place = (q.placeFrameStart m).place
      ∧ ((q.placeFrameStart m).driveStep.beginFrame parity).sender = (q.placeFrameStart m).sender := ⟨rfl, rfl⟩
  obtain ⟨placed, flags⟩ := tracked q.handedMargins
  rw [placed, flags, State.placeFrameStart_offset, State.placeFrameStart_offTarget, State.frameOffset_margins]
  refine ⟨?_, fun inactive => ?_, fun active => ?_, fun due => State.placeFrameStart_settles due _⟩
  · cases hm : q.picture.mode <;> simp only [State.handedMargins, hm] <;> rfl
  · rw [State.frameOffset_of_none inactive]
    exact ⟨rfl, rfl, rfl, rfl, by simp [inactive]⟩
  · rw [State.frameOffset_of_active active]
    refine ⟨rawOffset_near rfl, rawOffset_near rfl, rawOffset_tie rfl, rawOffset_tie rfl, rfl, rfl, rfl, rfl,
      fun unclamped => rawOffset_residue (by simpa using unclamped),
      fun unclamped => rawOffset_residue (by simpa using unclamped), ?_⟩
    simp only [ite_and, if_pos active]

end Sys2Proof.Machine

namespace Sys2Proof.Machine

/-! ### The swap (R31, R32, R38) -/

theorem ParityCond.satisfied_of {cond : ParityCond} {parity : Parity}
    (h : cond = .any ∨ (cond = .even ∧ parity = .even) ∨ (cond = .odd ∧ parity = .odd)) :
    cond.satisfied parity = true := by
  rcases h with rfl | ⟨rfl, rfl⟩ | ⟨rfl, rfl⟩ <;> rfl

theorem ParityCond.satisfied_of_other {cond : ParityCond} {parity : Parity}
    (h : (cond = .even ∧ parity = .odd) ∨ (cond = .odd ∧ parity = .even)) : cond.satisfied parity = false := by
  rcases h with ⟨rfl, rfl⟩ | ⟨rfl, rfl⟩ <;> rfl

theorem State.takeCommit_of_none {s : State} (h : s.table.commit = none) (parity : Parity) :
    s.takeCommit parity = s := by
  simp [State.takeCommit, h]

theorem State.takeCommit_of_waiting {s : State} {cond : ParityCond} (h : s.table.commit = some cond) {parity : Parity}
    (waits : cond.satisfied parity = false) : s.takeCommit parity = s := by
  simp [State.takeCommit, h, waits]

theorem State.takeCommit_of_satisfied {s : State} {cond : ParityCond} (h : s.table.commit = some cond)
    {parity : Parity} (met : cond.satisfied parity = true) : s.takeCommit parity =
      State.raise { s with table := { s.table with
        active := otherBank s.table.active, loadOpen := false, commit := none
        margins := s.table.loadBank.margins } } .tableSwapped := by
  simp [State.takeCommit, h, met]

/-- The swap exchanges the roles of the banks, never what they hold. -/
theorem State.takeCommit_leaves (s : State) (parity : Parity) :
    (s.takeCommit parity).table.auto = s.table.auto ∧ (s.takeCommit parity).table.mismatch = s.table.mismatch
      ∧ ∀ i, (s.takeCommit parity).table.bank i = s.table.bank i := by
  unfold State.takeCommit
  split
  · split
    · exact ⟨rfl, rfl, fun i => by cases i <;> rfl⟩
    · exact ⟨rfl, rfl, fun _ => rfl⟩
  · exact ⟨rfl, rfl, fun _ => rfl⟩

theorem State.exchanged_leaves (s : State) (parity : Parity) (z : Size) :
    (s.exchanged parity z).table.auto = s.table.auto ∧ (s.exchanged parity z).table.mismatch = s.table.mismatch
      ∧ (s.exchanged parity z).table.bank = s.table.bank := by
  obtain ⟨auto, mismatch, bank⟩ := (s.linkFrameStart parity z).takeCommit_leaves parity
  rw [(s.linkFrameStart_leaves parity z).1] at auto mismatch bank
  exact ⟨auto, mismatch, funext bank⟩

/-- Without a pending commit the store stays as it was. -/
theorem State.exchanged_of_free {s : State} (h : s.table.commit = none) (parity : Parity) (z : Size) :
    (s.exchanged parity z).table = s.table := by
  have same := (s.linkFrameStart_leaves parity z).1
  rw [← same] at h
  rw [State.exchanged, State.takeCommit_of_none h, same]

/-- With one that the parity does not satisfy, too: it waits (R31). -/
theorem State.exchanged_of_waiting {s : State} {cond : ParityCond} (h : s.table.commit = some cond) {parity : Parity}
    (waits : cond.satisfied parity = false) (z : Size) : (s.exchanged parity z).table = s.table := by
  have same := (s.linkFrameStart_leaves parity z).1
  rw [← same] at h
  rw [State.exchanged, State.takeCommit_of_waiting h waits, same]

/-- With one that it satisfies, the load bank is active, with its margins (R32, R38). -/
theorem State.exchanged_of_satisfied {s : State} {cond : ParityCond} (h : s.table.commit = some cond)
    {parity : Parity} (met : cond.satisfied parity = true) (z : Size) :
    (s.exchanged parity z).table = { s.table with
        active := otherBank s.table.active, loadOpen := false, commit := none, margins := s.table.loadBank.margins }
      ∧ (s.exchanged parity z).sender.has .tableSwapped = true := by
  have same := (s.linkFrameStart_leaves parity z).1
  rw [← same] at h
  rw [State.exchanged, State.takeCommit_of_satisfied h met, ← same]
  exact ⟨rfl, Sender.has_raise _ _⟩

/-! ### The flag of the size check -/

/-- Raising a flag leaves the others (R170). -/
theorem Sender.has_raise_ne (x : Sender) {e g : EventFlag} (h : flagBit g ≠ flagBit e) :
    (x.raise e).has g = x.has g := by
  rw [Bool.eq_iff_iff, Sender.has_raise_iff, or_iff_left h]

/-- The stages before the size check leave SIZE_MISMATCH. -/
theorem State.exchanged_sizeMismatch (s : State) (parity : Parity) (z : Size) :
    (s.exchanged parity z).sender.has .sizeMismatch = s.sender.has .sizeMismatch := by
  have received : (s.linkFrameStart parity z).sender.has .sizeMismatch = s.sender.has .sizeMismatch := by
    unfold State.linkFrameStart
    simp only
    split
    · rfl
    · exact Sender.has_raise_ne _ (by decide)
  rw [← received, State.exchanged]
  unfold State.takeCommit
  split
  · split
    · exact Sender.has_raise_ne _ (by decide)
    · rfl
  · rfl

/-- After the size check only PLACE_DONE may still be raised (R88). -/
theorem State.inputFrameStart_sender (s : State) (parity : Parity) (z : Size) :
    (s.inputFrameStart parity z).sender = (s.exchanged parity z).checkSize.sender
      ∨ (s.inputFrameStart parity z).sender = (s.exchanged parity z).checkSize.sender.raise .placeDone := by
  rw [State.inputFrameStart_eq_placed]
  change (State.placeFrameStart _ _).sender = _ ∨ (State.placeFrameStart _ _).sender = _
  unfold State.placeFrameStart
  simp only
  split
  · exact .inr rfl
  · exact .inl rfl

theorem State.inputFrameStart_sizeMismatch (s : State) (parity : Parity) (z : Size) :
    (s.inputFrameStart parity z).sender.has .sizeMismatch
      = (s.exchanged parity z).checkSize.sender.has .sizeMismatch := by
  rcases s.inputFrameStart_sender parity z with e | e
  · rw [e]
  · rw [e]
    exact Sender.has_raise_ne _ (by decide)

/-- What the swap raises stays raised. -/
theorem State.inputFrameStart_grows (s : State) (parity : Parity) (z : Size) :
    (s.exchanged parity z).sender.Grows (s.inputFrameStart parity z).sender := by
  obtain ⟨_, _, _, grows, check⟩ := (s.exchanged parity z).checkSize_frame
  rcases s.inputFrameStart_sender parity z with e | e
  · rw [e, check]
    exact grows
  · rw [e, check]
    exact grows.trans (Sender.grows_raise _ _)

/-! ### The mismatch run and the request (R34 to R36, R44, R54) -/

/-- A mismatch run of a size begins (R35). -/
def State.mismatched (s : State) (z : Size) : State :=
  State.raise { s with table := { s.table with mismatch := some z } } .sizeMismatch

theorem State.requestGeneration_of_none {s : State} {z : Size} (h : s.gen.corners = none ∨ s.gen.running = some z) :
    s.requestGeneration z = s := by
  unfold State.requestGeneration
  split
  · rfl
  · simp_all
  · rw [if_pos (by simp_all)]

theorem State.requestGeneration_starts {s : State} {z : Size} (corners : s.gen.corners ≠ none)
    (other : s.gen.running ≠ some z) : s.requestGeneration z = s.startGeneration z := by
  unfold State.requestGeneration
  split
  · exact absurd (by assumption) corners
  · rfl
  · rw [if_neg (by simp_all)]

section SizeCheck

variable {s : State}

/-- Outside TABLE mode the run ends (R36). -/
theorem State.checkSize_of_otherMode (h : s.picture.mode ≠ .table) :
    s.checkSize = { s with table := { s.table with mismatch := none } } := by
  have other : s.sizeCheck = .otherMode := by
    cases hm : s.picture.mode with
    | table => exact absurd hm h
    | identity | grid | mute => simp [State.sizeCheck, hm]
  simp [State.checkSize, other]

variable (mode : s.picture.mode = .table)

include mode

/-- Without a read slot the check is not made. -/
theorem State.checkSize_of_unread (h : s.link.readSize = none) : s.checkSize = s := by
  have check : s.sizeCheck = .notMade := by simp [State.sizeCheck, mode, h]
  simp [State.checkSize, check]

/-- An equal size ends the run (R36). -/
theorem State.checkSize_of_same (h : s.link.readSize = some s.table.activeBank.size) :
    s.checkSize = { s with table := { s.table with mismatch := none } } := by
  have check : s.sizeCheck = .same := by simp [State.sizeCheck, mode, h]
  simp [State.checkSize, check]

variable {z : Size} (read : s.link.readSize = some z) (ne : z ≠ s.table.activeBank.size)

include read ne

theorem State.sizeCheck_of_other : s.sizeCheck = .mismatch z := by simp [State.sizeCheck, mode, read, ne]

/-- The run of a size goes on (R35). -/
theorem State.checkSize_of_run (h : s.table.mismatch = some z) : s.checkSize = s := by
  simp [State.checkSize, State.sizeCheck_of_other mode read ne, h]

/-- A new run, which under AUTO requests a generation (R35, R44). -/
theorem State.checkSize_of_new (h : s.table.mismatch ≠ some z) :
    s.checkSize = if s.table.auto = true then (s.mismatched z).requestGeneration z else s.mismatched z := by
  simp only [State.checkSize, State.sizeCheck_of_other mode read ne, if_neg h]
  rfl

/-- A new run without AUTO, without corners or with a generation for its size already sets nothing off. -/
theorem State.checkSize_of_unrequested (h : s.table.mismatch ≠ some z)
    (idle : s.table.auto = false ∨ s.gen.corners = none ∨ s.gen.running = some z) : s.checkSize = s.mismatched z := by
  rw [State.checkSize_of_new mode read ne h]
  split
  · exact State.requestGeneration_of_none (idle.resolve_left (by simp [*]))
  · rfl

theorem State.checkSize_of_requested (h : s.table.mismatch ≠ some z) (auto : s.table.auto = true)
    (corners : s.gen.corners ≠ none) (other : s.gen.running ≠ some z) :
    s.checkSize = (s.mismatched z).startGeneration z := by
  rw [State.checkSize_of_new mode read ne h, if_pos auto]
  exact State.requestGeneration_starts corners other

/-- In every case a new run stands with its event raised (R35). -/
theorem State.checkSize_run_begins (h : s.table.mismatch ≠ some z) :
    s.checkSize.table.mismatch = some z ∧ s.checkSize.sender.has .sizeMismatch = true := by
  have event : (s.mismatched z).sender.has .sizeMismatch = true := Sender.has_raise _ _
  rw [State.checkSize_of_new mode read ne h]
  split
  · rcases (s.mismatched z).requestGeneration_cases z with e | ⟨_, _, e⟩
    · rw [e]; exact ⟨rfl, event⟩
    · rw [e]; exact ⟨TableStore.setLoadBank_mismatch _ _, event⟩
  · exact ⟨rfl, event⟩

end SizeCheck

/-- The size check leaves the active bank's number, the commit, AUTO and the margins, and never sets load-open. -/
structure TableStore.Checked (t u : TableStore) : Prop where
  active : u.active = t.active
  commit : u.commit = t.commit
  auto : u.auto = t.auto
  margins : u.margins = t.margins
  closed : t.loadOpen = false → u.loadOpen = false

theorem TableStore.Checked.refl (t : TableStore) : t.Checked t := ⟨rfl, rfl, rfl, rfl, id⟩

/-- The mismatch run is none of these. -/
theorem TableStore.Checked.withMismatch (t : TableStore) (x : Option Size) : t.Checked { t with mismatch := x } :=
  ⟨rfl, rfl, rfl, rfl, id⟩

theorem TableStore.Checked.trans {t u v : TableStore} (h : t.Checked u) (g : u.Checked v) : t.Checked v :=
  ⟨g.active.trans h.active, g.commit.trans h.commit, g.auto.trans h.auto, g.margins.trans h.margins,
    fun e => g.closed (h.closed e)⟩

theorem State.requestGeneration_checked (s : State) (z : Size) : s.table.Checked (s.requestGeneration z).table := by
  rcases s.requestGeneration_cases z with e | ⟨_, _, e⟩
  · rw [e]; exact .refl _
  · rw [e]
    exact ⟨TableStore.setLoadBank_active _ _, TableStore.setLoadBank_commit _ _, TableStore.setLoadBank_auto _ _,
      TableStore.setLoadBank_margins _ _, fun _ => rfl⟩

theorem State.checkSize_checked (s : State) : s.table.Checked s.checkSize.table := by
  unfold State.checkSize
  split
  · exact .withMismatch _ none
  · exact .withMismatch _ none
  · exact .refl _
  · rename_i z _
    split
    · exact .refl _
    · simp only
      split
      · exact (TableStore.Checked.withMismatch s.table (some z)).trans ((s.mismatched z).requestGeneration_checked z)
      · exact .withMismatch _ (some z)

/-- Settles O23: the swap on the store that the frame start finds, then the size check on the store that the swap
leaves. -/
theorem frameStartTakesThePendingCommit : Obligations.FrameStartTakesThePendingCommit := by
  intro s parity w h released
  refine ⟨_, (exec_inputFrameStart _ _ _ s).trans (whenReleased_eq released _), ?_⟩
  generalize (⟨w.toNat, h.toNat⟩ : Size) = declared
  obtain ⟨table, gen⟩ := s.inputFrameStart_tables parity declared
  obtain ⟨_, _, mode, link, gen₀⟩ := s.exchanged_blocks parity declared
  obtain ⟨auto₀, mismatch₀, bank₀⟩ := s.exchanged_leaves parity declared
  obtain ⟨active, commit, auto, margins, closed⟩ := (s.exchanged parity declared).checkSize_checked
  have activeBank := (s.exchanged parity declared).checkSize_activeBank
  have stays (h : (s.exchanged parity declared).table = s.table) :
      (s.inputFrameStart parity declared).table.active = s.table.active
        ∧ (s.inputFrameStart parity declared).table.commit = s.table.commit
        ∧ (s.inputFrameStart parity declared).table.activeBank = s.table.activeBank
        ∧ (s.inputFrameStart parity declared).table.margins = s.table.margins := by
    rw [table, active, commit, activeBank, margins, h]
    exact ⟨rfl, rfl, rfl, rfl⟩
  refine ⟨fun cond hc => ⟨fun met => ?_, fun waits => ?_⟩, fun free => ?_, ?_, ?_⟩
  · obtain ⟨swapped, event⟩ := State.exchanged_of_satisfied hc (ParityCond.satisfied_of met) declared
    rw [table, active, commit, activeBank, margins]
    rw [swapped] at closed ⊢
    exact ⟨rfl, closed rfl, rfl, rfl, rfl, (s.inputFrameStart_grows parity declared).has event⟩
  · rw [← hc]
    exact stays (State.exchanged_of_waiting hc (ParityCond.satisfied_of_other waits) declared)
  · rw [← free]
    exact stays (State.exchanged_of_free free parity declared)
  · rw [table, auto, auto₀]
  · rw [State.inputFrameStart_sizeMismatch, ← s.exchanged_sizeMismatch parity declared, table, gen, ← link, ← gen₀,
      ← mode, ← auto₀, ← mismatch₀, ← bank₀]
    generalize s.exchanged parity declared = q at activeBank active
    intro source noRequest noEvent
    have kept (x : Option Size) (h : q.checkSize = { q with table := { q.table with mismatch := x } }) :
        q.checkSize.table.mismatch = x ∧ noRequest ∧ noEvent := by
      have bank (i : BankId) : q.checkSize.table.bank i = q.table.bank i := by rw [h]; cases i <;> rfl
      exact ⟨congrArg (·.table.mismatch) h, ⟨by rw [h], bank⟩, congrArg (·.sender.has .sizeMismatch) h⟩
    refine ⟨fun other => kept none (State.checkSize_of_otherMode other), fun mode => ?_⟩
    refine ⟨fun unread => kept _ (State.checkSize_of_unread mode unread), fun same => ?_, fun z read ne => ?_⟩
    · rw [activeBank] at same
      exact kept none (State.checkSize_of_same mode same)
    · rw [activeBank] at ne
      refine ⟨?_, fun run => ?_, fun new => ⟨?_, fun idle => ?_, fun auto corners other => ?_⟩⟩
      · by_cases run : q.table.mismatch = some z
        · rw [State.checkSize_of_run mode read ne run, run]
        · exact (State.checkSize_run_begins mode read ne run).1
      · obtain ⟨_, unchanged⟩ := kept _ (State.checkSize_of_run mode read ne run)
        exact unchanged
      · exact (State.checkSize_run_begins mode read ne new).2
      · have e := State.checkSize_of_unrequested mode read ne new (idle.imp_right .inr)
        exact ⟨by rw [e]; rfl, fun i => by rw [e]; cases i <;> rfl⟩
      · have e := State.checkSize_of_requested mode read ne new auto corners other
        have cleared : q.checkSize.table.loadBank = ⟨z, .generated, []⟩ := by
          rw [e]
          exact TableStore.loadBank_setLoadBank _ _
        rw [cleared, activeBank, active]
        exact ⟨congrArg State.gen e, congrArg (·.table.loadOpen) e, rfl, rfl, fun _ => rfl, rfl⟩

end Sys2Proof.Machine

namespace Sys2Proof.Machine

/-! ### The payload of CORNERS (R42) -/

/-- A corner on the panel (R42). -/
def Point.OnPanel (q : Point) : Prop := 0 ≤ q.x ∧ q.x ≤ 3839 ∧ 0 ≤ q.y ∧ q.y ≤ 2159

/-- A pair of words gives a corner exactly where it spells one of the panel. -/
theorem pointOf_eq {x y : Word} {q : Point} :
    pointOf x y = some q ↔ q.OnPanel ∧ x = BitVec.ofInt 16 q.x ∧ y = BitVec.ofInt 16 q.y := by
  constructor
  · intro h
    simp only [pointOf, Option.bind_eq_bind, Option.bind_eq_some_iff, Option.pure_def, Option.some.injEq] at h
    obtain ⟨_, hx, _, hy, rfl⟩ := h
    obtain ⟨rfl, x0, x1⟩ := signedWithin_eq.1 hx
    obtain ⟨rfl, y0, y1⟩ := signedWithin_eq.1 hy
    exact ⟨⟨x0, x1, y0, y1⟩, BitVec.ofInt_toInt.symm, BitVec.ofInt_toInt.symm⟩
  · rintro ⟨⟨x0, x1, y0, y1⟩, rfl, rfl⟩
    have hx := signedWithin_ofInt ⟨x0, x1⟩ (by decide) (by decide)
    have hy := signedWithin_ofInt ⟨y0, y1⟩ (by decide) (by decide)
    simp [pointOf, hx, hy]

/-- All four corners are on the panel (R42). -/
def CornerSet.OnPanel (c : CornerSet) : Prop := ∀ q ∈ [c.tl, c.tr, c.bl, c.br], q.OnPanel

/-- The corners are in order (R42). -/
def CornerSet.Ordered (c : CornerSet) : Prop := c.tl.x < c.tr.x ∧ c.bl.x < c.br.x ∧ c.tl.y < c.bl.y ∧ c.tr.y < c.br.y

/-- The layout of CORNERS: each corner's column, then its row (spec 10.8). -/
def CornerSet.payload (c : CornerSet) : List Word :=
  [c.tl, c.tr, c.bl, c.br].flatMap fun q => [BitVec.ofInt 16 q.x, BitVec.ofInt 16 q.y]

theorem CornerSet.onPanel_iff (c : CornerSet) :
    c.OnPanel ↔ c.tl.OnPanel ∧ c.tr.OnPanel ∧ c.bl.OnPanel ∧ c.br.OnPanel := by
  simp [CornerSet.OnPanel]

theorem CornerSet.ordered_iff (c : CornerSet) :
    c.Ordered ↔ ¬ (c.tr.x ≤ c.tl.x ∨ c.br.x ≤ c.bl.x ∨ c.bl.y ≤ c.tl.y ∨ c.br.y ≤ c.tr.y) := by
  simp [CornerSet.Ordered]

/-- The payload gives a set of the panel back exactly where it is in order. -/
theorem cornersFields_payload {c : CornerSet} (h : c.OnPanel) :
    cornersFields c.payload =
      if c.tr.x ≤ c.tl.x ∨ c.br.x ≤ c.bl.x ∨ c.bl.y ≤ c.tl.y ∨ c.br.y ≤ c.tr.y then none else some c := by
  obtain ⟨tl, tr, bl, br⟩ := c.onPanel_iff.1 h
  simp [cornersFields, CornerSet.payload, pointOf_eq.2 ⟨tl, rfl, rfl⟩, pointOf_eq.2 ⟨tr, rfl, rfl⟩,
    pointOf_eq.2 ⟨bl, rfl, rfl⟩, pointOf_eq.2 ⟨br, rfl, rfl⟩]

theorem cornersFields_of_ordered {c : CornerSet} (h : c.OnPanel) (ordered : c.Ordered) :
    cornersFields c.payload = some c := by
  rw [cornersFields_payload h, if_neg (c.ordered_iff.1 ordered)]

theorem cornersFields_of_disordered {c : CornerSet} (h : c.OnPanel) (disordered : ¬ c.Ordered) :
    cornersFields c.payload = none := by
  rw [cornersFields_payload h, if_pos (not_not.1 (mt c.ordered_iff.2 disordered))]

/-- No other payload gives a corner set. -/
theorem eq_payload_of_cornersFields {p : List Word} {c : CornerSet} (h : cornersFields p = some c) :
    c.OnPanel ∧ p = c.payload := by
  unfold cornersFields at h
  split at h
  · simp only [Option.bind_eq_bind, Option.bind_eq_some_iff] at h
    obtain ⟨tl, htl, tr, htr, bl, hbl, br, hbr, h⟩ := h
    obtain ⟨tlOn, rfl, rfl⟩ := pointOf_eq.1 htl
    obtain ⟨trOn, rfl, rfl⟩ := pointOf_eq.1 htr
    obtain ⟨blOn, rfl, rfl⟩ := pointOf_eq.1 hbl
    obtain ⟨brOn, rfl, rfl⟩ := pointOf_eq.1 hbr
    split at h
    · cases h
    · cases h
      exact ⟨(CornerSet.onPanel_iff _).2 ⟨tlOn, trOn, blOn, brOn⟩, rfl⟩
  · cases h

theorem cornersFields_of_other {p : List Word} (h : ∀ c : CornerSet, c.OnPanel → p ≠ c.payload) :
    cornersFields p = none := by
  rw [Option.eq_none_iff_forall_ne_some]
  intro c hc
  obtain ⟨onPanel, hp⟩ := eq_payload_of_cornersFields hc
  exact h c onPanel hp

/-! ### What CORNERS does with a set in order (R42, R43) -/

section CornersBody

variable {s : State} (hs : s.startup.part ≠ .starting) {p : List Word} {c : CornerSet} (hp : cornersFields p = some c)

include hs hp

theorem cornersBody_of_busy (busy : s.tableBusy = true) : cornersBody p s = (s, .refused .busy) := by
  rw [cornersBody, readyThen_of_some hs hp, if_pos busy]

/-- Without a declared size within the fixed formats there is nothing to generate for (R42). -/
theorem cornersBody_of_unsized (free : ¬ s.tableBusy = true)
    (unsized : ∀ z, s.link.lastSize = some z → z.inFormats = false) :
    cornersBody p s = (s, .refused .badState) := by
  rw [cornersBody, readyThen_of_some hs hp, if_neg free]
  cases hz : s.link.lastSize with
  | none => rfl
  | some z => exact if_pos (unsized z hz)

/-- With one, a generation starts for it under AUTO (R43). -/
theorem cornersBody_of_sized (free : ¬ s.tableBusy = true) {z : Size} (size : s.link.lastSize = some z)
    (fits : z.inFormats = true) : cornersBody p s = ({ s with
      gen := { s.gen with corners := some c, running := some z }
      table := { s.table.setLoadBank ⟨z, .generated, []⟩ with auto := true, loadOpen := false } }, .done) := by
  rw [cornersBody, readyThen_of_some hs hp, if_neg free]
  simp only [size, fits, Bool.true_eq_false, if_false, State.startGeneration, TableStore.setLoadBank_withAuto]

end CornersBody

/-! ### The lines a generation leaves and its outcome (R46, R49, R50, R52) -/

section Generated

variable {c : CornerSet} {z : Size}

/-- The bank that a generation leaves. -/
def generatedBank (c : CornerSet) (z : Size) : Bank := ⟨z, .generated, (generate c z).1⟩

theorem generatedBank_wf (c : CornerSet) (z : Size) : bankWf (generatedBank c z) := generate_wf c z _ _

/-- A bank lists the panel's lines alone. -/
theorem bankRecord_of_panelRows_le {b : Bank} (h : bankWf b) {j : Nat} (hj : Config.panelRows ≤ j) :
    bankRecord b j = darkRecord := by
  obtain ⟨_, listed, _⟩ := h
  refine (bankRecord_cases b j).resolve_left fun mem => ?_
  have := listed _ mem
  omega

/-- The computation stops at the first line that is too narrow; the lines from there on stay DARK (R46, R52). -/
theorem generatedLines_stop {i : Nat} (h : (generatedLines c z Config.panelRows 0).2 = some i) :
    generatedLine c z i = none ∧ (generate c z).2 = .failed .badShape i
      ∧ (∀ k, k < i → generatedLine c z k = some (bankRecord (generatedBank c z) k))
      ∧ ∀ k, i ≤ k → bankRecord (generatedBank c z) k = darkRecord := by
  obtain ⟨_, _, computed, stop⟩ := generatedLines_spec c z Config.panelRows 0
  obtain ⟨_, hi, fails, before⟩ := stop i h
  refine ⟨fails, by simp [generate, h], fun k hk => ?_, fun k hk => ?_⟩
  · refine computed k (Nat.zero_le k) (hk.trans hi) fun i' hi' => ?_
    cases h.symm.trans hi'
    exact hk
  · refine (bankRecord_cases _ k).resolve_left fun mem => ?_
    have := before _ mem
    omega

/-- Without such a line every line of the panel is computed (R49). -/
theorem generatedLines_whole (h : (generatedLines c z Config.panelRows 0).2 = none) {j : Nat}
    (hj : j < Config.panelRows) : generatedLine c z j = some (bankRecord (generatedBank c z) j) := by
  obtain ⟨_, _, computed, _⟩ := generatedLines_spec c z Config.panelRows 0
  refine computed j (Nat.zero_le j) (by omega) fun i hi => ?_
  cases h.symm.trans hi

/-- The computation stops where some line of the panel is too narrow (R46). -/
theorem exists_generatedLines_stop {j : Nat} (hj : j < Config.panelRows) (fails : generatedLine c z j = none) :
    ∃ i, (generatedLines c z Config.panelRows 0).2 = some i := by
  rw [← Option.ne_none_iff_exists']
  intro whole
  cases fails.symm.trans (generatedLines_whole whole hj)

/-- And nowhere else. -/
theorem generatedLines_not_stopped (h : ∀ j, j < Config.panelRows → generatedLine c z j ≠ none) :
    (generatedLines c z Config.panelRows 0).2 = none := by
  rw [Option.eq_none_iff_forall_ne_some]
  intro i hi
  obtain ⟨_, _, _, stop⟩ := generatedLines_spec c z Config.panelRows 0
  obtain ⟨_, below, fails, _⟩ := stop i hi
  exact h i (by omega) fails

variable (whole : (generatedLines c z Config.panelRows 0).2 = none)

include whole

/-- A generation of lines that all pass validation succeeds (R49, R50). -/
theorem generate_succeeds (passes : ∀ j, j < Config.panelRows → (bankRecord (generatedBank c z) j).failure = none) :
    (generate c z).2 = .success := by
  have valid : (generatedBank c z).validate = none := by
    refine (Bank.validate_none (generatedBank_wf c z)).2 fun j => ?_
    rcases lt_or_ge j Config.panelRows with hj | hj
    · exact passes j hj
    · rw [bankRecord_of_panelRows_le (generatedBank_wf c z) hj, darkRecord_failure]
  have listed : firstFailure (generatedLines c z Config.panelRows 0).1 = none := valid
  simp [generate, whole, listed]

/-- One that fails a test does so on the first line that fails (R30, R52). -/
theorem generate_fails_test {j : Nat} {test : TableTest} (fails : (bankRecord (generatedBank c z) j).failure = some test)
    (first : ∀ k, k < j → (bankRecord (generatedBank c z) k).failure = none) :
    (generate c z).2 = .failed (.test test) j := by
  have invalid : (generatedBank c z).validate = some (j, test) :=
    (Bank.validate_some (generatedBank_wf c z)).2 ⟨fails, first⟩
  have listed : firstFailure (generatedLines c z Config.panelRows 0).1 = some (j, test) := invalid
  simp [generate, whole, listed]

end Generated

/-! ### The generation's end (R49, R50, R52) -/

/-- The records stand in the load bank and the generator is IDLE with its outcome (R49). -/
def State.withGeneration (s : State) (records : Store LineRecord) (outcome : GenOutcome) : State :=
  { s with
    table := s.table.setLoadBank { s.table.loadBank with records := records }
    gen := { s.gen with running := none, outcome := outcome } }

section GenerationEnd

variable {s : State} {c : CornerSet} {z : Size} (running : s.gen.running = some z) (corners : s.gen.corners = some c)

include running corners

theorem State.endGeneration_of_success (h : (generate c z).2 = .success) : s.endGeneration =
    State.raise { s.withGeneration (generate c z).1 (generate c z).2 with
      table := { (s.withGeneration (generate c z).1 (generate c z).2).table with commit := some .any }
      picture := { s.picture with mode := .table } } .genDone := by
  simp only [State.endGeneration, State.withGeneration, running, corners, h]

theorem State.endGeneration_of_failed {reason : GenReason} {j : Nat} (h : (generate c z).2 = .failed reason j) :
    s.endGeneration = (s.withGeneration (generate c z).1 (generate c z).2).raise .genFailed := by
  simp only [State.endGeneration, State.withGeneration, running, corners, h]

end GenerationEnd

theorem exec_generationEnd {s : State} (h : s.hold.held = false) : exec .generationEnd s = .next s.endGeneration :=
  whenReleased_eq h _

/-- Settles O60: CORNERS by its payload and the table store; the generation's end by whether and where the
computation stops, then by validation of the lines it left. -/
theorem generationFillsTheLoadBank : Obligations.GenerationFillsTheLoadBank := by
  refine fun s => ⟨?_, ?_, ?_⟩
  · intro e c hs onPanel executes
    simp only
    rw [← State.tableBusy_iff]
    have fields (ordered : c.Ordered) := cornersFields_of_ordered onPanel ordered
    refine ⟨fun disordered => ?_, fun ordered busy => ?_, fun ordered free unsized => ?_,
      fun z ordered free size fits => ?_⟩
    · exact exec_eq_ended rfl executes (readyThen_of_none hs (cornersFields_of_disordered onPanel disordered))
    · exact exec_eq_ended rfl executes (cornersBody_of_busy hs (fields ordered) busy)
    · exact exec_eq_ended rfl executes (cornersBody_of_unsized hs (fields ordered) free unsized)
    · exact exec_eq_ended rfl executes (cornersBody_of_sized hs (fields ordered) free size fits)
  · intro e p hs other executes
    exact exec_eq_ended rfl executes (readyThen_of_none hs (cornersFields_of_other other))
  · intro c z released running corners
    refine ⟨(generate c z).1, (generate c z).2, ?_, fun computed => ?_⟩
    · rintro ⟨j, hj, narrow⟩
      obtain ⟨i, hi⟩ := exists_generatedLines_stop hj narrow
      obtain ⟨fails, outcome, before, after⟩ := generatedLines_stop hi
      rw [exec_generationEnd released, State.endGeneration_of_failed running corners outcome]
      exact ⟨rfl, i, fails, outcome, before, after⟩
    · have whole := generatedLines_not_stopped computed
      refine ⟨fun j => generatedLines_whole whole, fun passes => ?_, fun j test _ fails first => ?_⟩
      · have outcome := generate_succeeds whole passes
        rw [exec_generationEnd released, State.endGeneration_of_success running corners outcome]
        exact ⟨outcome, rfl⟩
      · have outcome := generate_fails_test whole fails first
        rw [exec_generationEnd released, State.endGeneration_of_failed running corners outcome]
        exact ⟨outcome, rfl⟩

end Sys2Proof.Machine

/-! # The lens controller

What each operation of an axis leaves of the lens controller, and the promise of the axes, kept by every command. -/

namespace Sys2Proof.Machine

/-! ### The lens controller after the operations of one axis -/

@[simp] theorem State.setAxis_setAxis (s : State) (a : Axis) (u w : AxisUnit) :
    (s.setAxis a u).setAxis a w = s.setAxis a w := by
  cases a <;> rfl

/-- Writing back what an axis holds changes nothing. -/
@[simp] theorem State.setAxis_axis (s : State) (a : Axis) : s.setAxis a (s.axis a) = s := by
  cases a <;> rfl

@[simp] theorem State.reportStopped_lens (s : State) (a : Axis) (o : Owner) : (s.reportStopped a o).lens = s.lens := by
  cases o <;> rfl

@[simp] theorem State.reportCompleted_lens (s : State) (a : Axis) (o : Owner) :
    (s.reportCompleted a o).lens = s.lens := by
  cases o <;> rfl

@[simp] theorem State.rezeroFocus_lens (s : State) (a : Axis) : (s.rezeroFocus a).lens = s.lens := by
  cases a <;> rfl

@[simp] theorem State.handOver_lens (s : State) (a : Axis) (target : Nat) : (s.handOver a target).lens = s.lens := by
  cases a <;> rfl

theorem State.clearHomed_lens (s : State) (a : Axis) (p : Phase) :
    (s.clearHomed a p).lens = (s.setAxis a { s.axis a with phase := p, pos := 0, ring := [] }).lens := by
  cases a <;> rfl

theorem State.axis_clearHomed (s : State) (a : Axis) (p : Phase) :
    (s.clearHomed a p).axis a = { s.axis a with phase := p, pos := 0, ring := [] } := by
  cases a <;> rfl

theorem State.standIdle_lens (s : State) (a : Axis) (r : HaltReason) (m : MoveRec) : (s.standIdle a r m).lens
    = (s.setAxis a { s.axis a with phase := .idle, lastEnd := .stopped r.toStop }).lens := by
  simp [State.standIdle]

theorem State.completeMove_lens (s : State) (a : Axis) (o : Owner) : (s.completeMove a o).lens
    = (s.setAxis a { s.axis a with phase := .idle, lastEnd := .completed }).lens := by
  simp [State.completeMove]

theorem State.standUnhomed_lens (s : State) (a : Axis) (r : HaltReason) : (s.standUnhomed a r).lens
    = (s.setAxis a { s.axis a with
        phase := .unhomed, pos := 0, ring := [], lastEnd := .homeFailed r.toHomeFailure }).lens := by
  cases a <;> rfl

/-! ### Legs (R64) -/

/-- The legs of a move end within the travel, the last of them at the target; there are two at most. -/
theorem legsOf_spec (p t backlash top : Nat) (way : Dir) (ht : t ≤ top) :
    (∀ leg ∈ legsOf p t backlash top way, leg.stop ≤ top) ∧ (legsOf p t backlash top way).length ≤ 2
      ∧ (p ≠ t → (legsOf p t backlash top way).getLast?.map (·.stop) = some t
        ∧ ((legsOf p t backlash top way).getLast?.map (·.dir) = some way
          ∨ (way = .raise ∧ t < p ∧ t - backlash = t) ∨ (way = .lower ∧ p < t ∧ min top (t + backlash) = t))) := by
  unfold legsOf
  rcases lt_trichotomy p t with up | same | down
  · rw [if_pos up]
    cases way with
    | raise => simp [ht]
    | lower =>
      simp only
      split
      · rename_i direct; simp [ht, up, direct]
      · simp [ht]
  · simp [same]
  · rw [if_neg (by omega), if_pos down]
    cases way with
    | lower => simp [ht]
    | raise =>
      simp only
      split
      · rename_i direct; simp [ht, down, direct]
      · simp [ht]; omega

theorem legsOf_self (p backlash top : Nat) (way : Dir) : legsOf p p backlash top way = [] := by
  simp [legsOf]

/-! ### The promise of one axis, without its locks -/

/-- What a phase holds stays within the travel: the record, and a deceleration with its intent (R63, R71). -/
structure Phase.Within (p : Phase) (max pos : Nat) : Prop where
  record : ∀ m, p.record = some m → m.Sound max pos
  stopping : ∀ m intent left, p = .stopping m intent left →
    (∀ leg, m.leg = some leg → left ≤ leg.rest pos) ∧ ∀ t, intent = .retarget t → t ≤ max

theorem Phase.within_of_none {p : Phase} (h : p.record = none) (max pos : Nat) : p.Within max pos where
  record m hm := by simp [h] at hm
  stopping m intent left hp := by simp [hp, Phase.record] at h

theorem MoveRec.Sound.moving {m : MoveRec} {max pos : Nat} (h : m.Sound max pos) :
    (Phase.moving m).Within max pos where
  record := by rintro _ ⟨rfl⟩; exact h
  stopping _ _ _ e := nomatch e

theorem MoveRec.Sound.holding {m : MoveRec} {max pos : Nat} (h : m.Sound max pos) :
    (Phase.holding m).Within max pos where
  record := by rintro _ ⟨rfl⟩; exact h
  stopping _ _ _ e := nomatch e

theorem MoveRec.Sound.stopping {m : MoveRec} {max pos left : Nat} {intent : StopIntent} (h : m.Sound max pos)
    (hl : ∀ leg, m.leg = some leg → left ≤ leg.rest pos) (ht : ∀ t, intent = .retarget t → t ≤ max) :
    (Phase.stopping m intent left).Within max pos where
  record := by rintro _ ⟨rfl⟩; exact h
  stopping := by rintro _ _ _ ⟨⟩; exact ⟨hl, ht⟩

/-- A record whose leg number n begins (R65). -/
theorem MoveRec.Sound.restart {m : MoveRec} {max pos n : Nat} (h : m.Sound max pos)
    (hn : 1 ≤ n ∧ n ≤ m.legs.length) :
    MoveRec.Sound { m with current := n, k := 0, lastIndex := 0, timer := ⟨0, 1⟩ } max pos :=
  ⟨h.target, h.legs, hn, fun _ _ => Nat.zero_le _⟩

/-- A step of a leg that has steps left stays within the travel and takes one off the rest. -/
theorem Leg.step_spec {leg : Leg} {max pos : Nat} (hs : leg.stop ≤ max) (hp : pos ≤ max) (left : leg.rest pos ≠ 0) :
    leg.step pos ≤ max ∧ leg.rest (leg.step pos) = leg.rest pos - 1 := by
  have going := left
  unfold Leg.rest at going ⊢
  unfold Leg.step
  cases hd : leg.dir <;> simp only [hd] at going ⊢ <;> split <;> omega

/-- A record after a step whose ramp index is below the steps that remained (R62, R71). -/
theorem MoveRec.Sound.stepped {m : MoveRec} {max pos i : Nat} {leg : Leg} (h : m.Sound max pos)
    (hleg : m.leg = some leg) (hp : pos ≤ max) (hi : i < leg.rest pos) :
    (m.stepped i).Sound max (leg.step pos) := by
  have hs : leg.stop ≤ max := h.legs leg (List.mem_of_getElem? hleg)
  refine ⟨h.target, h.legs, h.current, fun l hl => ?_⟩
  cases hleg.symm.trans hl
  have := (Leg.step_spec hs hp (by omega)).2
  change i ≤ _
  omega

/-- The promise of an axis but for its locks. -/
structure AxisUnit.Placed (u : AxisUnit) (a : Axis) : Prop where
  cal : u.cal.Sound a
  unhomed : u.homed = false → u.pos = 0 ∧ u.ring = []
  position : u.pos ≤ u.cal.max
  ring : u.ring.length ≤ 8 ∧ ∀ p ∈ u.ring, p ≤ u.cal.max
  within : u.phase.Within u.cal.max u.pos

theorem AxisUnit.Sound.placed {u : AxisUnit} {a : Axis} (h : u.Sound a) : u.Placed a :=
  ⟨h.cal, h.unhomed, h.position, h.ring, h.record, h.stopping⟩

theorem AxisUnit.Placed.sound {u : AxisUnit} {a : Axis} (h : u.Placed a)
    (hl : u.locked = true → u.phase.underLock = true) : u.Sound a :=
  ⟨h.cal, h.unhomed, h.position, h.ring, h.within.record, h.within.stopping, hl⟩

theorem AxisUnit.Placed.locks {u : AxisUnit} {a : Axis} (h : u.Placed a) (host prot : Bool) :
    AxisUnit.Placed { u with hostLock := host, protLock := prot } a :=
  ⟨h.cal, h.unhomed, h.position, h.ring, h.within⟩

/-- The axis is homed after the update, at a place within its travel. -/
theorem AxisUnit.Placed.homed {u w : AxisUnit} {a : Axis} (h : u.Placed a) (homed : w.homed = true)
    (pos : w.pos ≤ u.cal.max) (within : w.phase.Within u.cal.max w.pos) (cal : w.cal = u.cal := by rfl)
    (ring : w.ring = u.ring := by rfl) : w.Placed a where
  cal := cal ▸ h.cal
  unhomed no := by simp [homed] at no
  position := by rw [cal]; exact pos
  ring := by rw [cal, ring]; exact h.ring
  within := by rw [cal]; exact within

/-- The axis stands at 0 with an empty ring and no record after the update. -/
theorem AxisUnit.Placed.cleared {u w : AxisUnit} {a : Axis} (h : u.Placed a) (record : w.phase.record = none)
    (pos : w.pos = 0 := by rfl) (ring : w.ring = [] := by rfl) (cal : w.cal = u.cal := by rfl) : w.Placed a where
  cal := cal ▸ h.cal
  unhomed _ := ⟨pos, ring⟩
  position := by rw [pos]; exact Nat.zero_le _
  ring := by rw [ring]; simp
  within := Phase.within_of_none record _ _

/-- Standing where it is, with the record gone. -/
theorem AxisUnit.Placed.standing {u : AxisUnit} {a : Axis} (h : u.Placed a) (x : LastEnd) :
    AxisUnit.Placed { u with phase := .idle, lastEnd := x } a :=
  h.homed rfl h.position (Phase.within_of_none rfl _ _)

theorem AxisUnit.Sound.unlocked {u : AxisUnit} {a : Axis} (h : u.Sound a) (hp : u.phase.underLock = false) :
    u.locked = false := by
  cases hl : u.locked with
  | false => rfl
  | true => simp [h.locked hl] at hp

/-! ### The promise of the lens controller, one axis left open -/

/-- Every promise of the lens controller holds, except that one axis may carry on under a lock just set. -/
structure State.LensSoundBut (s : State) (a : Axis) : Prop where
  others : ∀ b, b ≠ a → (s.axis b).Sound b
  four : s.lens.profiles.length = 4
  profiles : ∀ p ∈ s.lens.profiles, p.Sound
  placed : (s.axis a).Placed a

theorem Lens.Sound.axis {s : State} (h : s.lens.Sound) (a : Axis) : (s.axis a).Sound a := h.axes a

theorem Lens.Sound.but {s : State} (h : s.lens.Sound) (a : Axis) : s.LensSoundBut a :=
  ⟨fun b _ => h.axis b, h.four, h.profiles, (h.axis a).placed⟩

/-- An update of one axis asks only for that axis's own promise. -/
theorem State.LensSoundBut.put {s : State} {a : Axis} (h : s.LensSoundBut a) {u : AxisUnit} (hu : u.Placed a)
    (hl : u.locked = true → u.phase.underLock = true) : (s.setAxis a u).lens.Sound where
  axes b := by
    change ((s.setAxis a u).axis b).Sound b
    by_cases hb : b = a
    · subst hb; simpa using hu.sound hl
    · rw [State.axis_setAxis_ne _ _ hb]; exact h.others b hb
  four := h.four
  profiles := h.profiles

/-- On an axis free of locks nothing more is asked. -/
theorem State.LensSoundBut.putFree {s : State} {a : Axis} (h : s.LensSoundBut a) (free : (s.axis a).locked = false)
    {u : AxisUnit} (hu : u.Placed a) (host : u.hostLock = (s.axis a).hostLock := by rfl)
    (prot : u.protLock = (s.axis a).protLock := by rfl) : (s.setAxis a u).lens.Sound := by
  refine h.put hu fun locked => ?_
  rw [AxisUnit.locked, host, prot] at locked
  exact absurd (free.symm.trans locked) (by decide)

theorem State.LensSoundBut.setAxis {s : State} {a : Axis} (h : s.LensSoundBut a) {u : AxisUnit} (hu : u.Placed a) :
    (s.setAxis a u).LensSoundBut a where
  others b hb := by rw [State.axis_setAxis_ne _ _ hb]; exact h.others b hb
  four := h.four
  profiles := h.profiles
  placed := by simpa using hu

theorem State.LensSoundBut.of_lens {s t : State} {a : Axis} (h : s.LensSoundBut a) (e : t.lens = s.lens) :
    t.LensSoundBut a := by
  obtain ⟨others, four, profiles, placed⟩ := h
  unfold State.axis at others placed
  rw [← e] at others four profiles placed
  exact ⟨others, four, profiles, placed⟩

section OneAxis

variable {s : State} {a : Axis} (h : s.LensSoundBut a)

include h

theorem State.LensSoundBut.standIdle (r : HaltReason) (m : MoveRec) : (s.standIdle a r m).lens.Sound := by
  rw [State.standIdle_lens]
  exact h.put (h.placed.standing _) fun _ => rfl

theorem State.LensSoundBut.completeMove (o : Owner) : (s.completeMove a o).lens.Sound := by
  rw [State.completeMove_lens]
  exact h.put (h.placed.standing _) fun _ => rfl

theorem State.LensSoundBut.standUnhomed (r : HaltReason) : (s.standUnhomed a r).lens.Sound := by
  rw [State.standUnhomed_lens]
  exact h.put (h.placed.cleared rfl) fun _ => rfl

/-- A record the axis holds is sound. -/
theorem State.LensSoundBut.record {m : MoveRec} (hm : (s.axis a).phase.record = some m) :
    m.Sound (s.axis a).cal.max (s.axis a).pos :=
  h.placed.within.record m hm

/-- A deceleration begun at the ramp index of the record's last step. -/
theorem State.LensSoundBut.slow {m : MoveRec} {intent : StopIntent} (hm : m.Sound (s.axis a).cal.max (s.axis a).pos)
    (ht : ∀ t, intent = .retarget t → t ≤ (s.axis a).cal.max)
    (hl : (s.axis a).locked = true → (Phase.stopping m intent m.lastIndex).underLock = true) :
    (s.setPhase a (.stopping m intent m.lastIndex)).lens.Sound :=
  h.put (h.placed.homed rfl h.placed.position (hm.stopping hm.slowing ht)) hl

theorem State.LensSoundBut.haltMove {m : MoveRec} (r : HaltReason) (hm : (s.axis a).phase.record = some m) :
    (s.haltMove a r m).lens.Sound := by
  unfold State.haltMove
  split
  · exact h.standIdle r m
  · exact h.slow (h.record hm) (fun _ e => nomatch e) fun _ => rfl

/-- A homing axis goes on homing (R182): it stands at 0 all along. -/
theorem State.LensSoundBut.homingOn {run : HomingRun} (hr : (s.axis a).phase = .homing run) {w : AxisUnit}
    {next : HomingRun} (hw : w = { s.axis a with phase := .homing next, pulses := w.pulses, dirOut := w.dirOut }) : w.Placed a := by
  have zero := h.placed.unhomed (by simp [AxisUnit.homed, hr, Phase.homed])
  obtain ⟨pos, ring⟩ := zero
  rw [hw]
  exact h.placed.cleared rfl pos ring

/-- The sequence decelerates after this, or did before (assumption 23). -/
theorem State.LensSoundBut.haltHoming {run : HomingRun} (r : HaltReason) (hr : (s.axis a).phase = .homing run)
    (going : run.halt.isSome = true → s.lens.Sound) : (s.haltHoming a r run).lens.Sound := by
  unfold State.haltHoming
  split
  · rename_i halted; exact going (by simp [halted])
  · split
    · exact h.standUnhomed r
    · exact h.put (h.homingOn hr rfl) fun _ => rfl

/-- The table of R75 ends whatever a lock forbids. -/
theorem State.LensSoundBut.lockEffect : (s.lockEffect a).lens.Sound := by
  have still (hp : (s.axis a).phase.underLock = true) : s.lens.Sound := by
    have := h.put h.placed fun _ => hp
    rwa [State.setAxis_axis] at this
  have slower {m : MoveRec} {intent : StopIntent} {left : Nat} (hp : (s.axis a).phase = .stopping m intent left) :
      (s.setPhase a (.stopping m (.idle .locked) left)).lens.Sound :=
    h.put (h.placed.homed rfl h.placed.position ((h.record (by rw [hp]; rfl)).stopping
      (h.placed.within.stopping _ _ _ hp).1 fun _ e => nomatch e)) fun _ => rfl
  unfold State.lockEffect
  split <;> rename_i hp
  · exact h.haltMove _ (by rw [hp]; rfl)
  · exact slower hp
  · exact slower hp
  · exact still (by rw [hp]; rfl)
  · exact h.standIdle _ _
  · exact h.haltHoming _ hp fun halted => still (by rw [hp]; exact halted)
  all_goals exact still (by rw [hp]; rfl)

end OneAxis

/-- A lock is set or cleared, with its effect where it is the first (R75). -/
theorem Lens.Sound.relock {s : State} (h : s.lens.Sound) (a : Axis) (host prot on : Bool)
    (hl : (host || prot) = true → on = true ∨ (s.axis a).locked = true) :
    (if on && !(s.axis a).locked then
        (s.setAxis a { s.axis a with hostLock := host, protLock := prot }).lockEffect a
      else s.setAxis a { s.axis a with hostLock := host, protLock := prot }).lens.Sound := by
  have placed := (h.axis a).placed.locks host prot
  split
  · exact ((h.but a).setAxis placed).lockEffect
  · rename_i first
    refine (h.but a).put placed fun locked => (h.axis a).locked ?_
    rcases hl locked with hon | hwas
    · simpa [hon] using first
    · exact hwas

theorem Lens.Sound.setHostLock {s : State} (h : s.lens.Sound) (a : Axis) (on : Bool) :
    (s.setHostLock a on).lens.Sound :=
  h.relock a on (s.axis a).protLock on fun locked => by
    cases on
    · exact .inr (by simpa [AxisUnit.locked] using Or.inr locked)
    · exact .inl rfl

theorem Lens.Sound.setProtLock {s : State} (h : s.lens.Sound) (a : Axis) (on : Bool) :
    (s.setProtLock a on).lens.Sound :=
  h.relock a (s.axis a).hostLock on on fun locked => by
    cases on
    · exact .inr (by simpa [AxisUnit.locked] using Or.inl locked)
    · exact .inl rfl

theorem Lens.Sound.deliver {s : State} (h : s.lens.Sound) : s.deliver.lens.Sound := by
  have start : s.delivering.lens.Sound := h
  rw [State.deliver_eq]
  exact ((start.setProtLock .v _).setProtLock .h _).setProtLock .f _

theorem Lens.Sound.accept {s : State} (h : s.lens.Sound) : s.accept.lens.Sound := by
  unfold State.accept
  split
  · exact Lens.Sound.deliver h
  · exact h

theorem Lens.Sound.makePending {s : State} (h : s.lens.Sound) (x : Source) : (s.makePending x).lens.Sound := by
  unfold State.makePending
  split
  · exact h
  · exact Lens.Sound.accept h

/-! ### Faults and moves -/

/-- An axis that leaves homed for a phase no lock forbids. -/
theorem State.LensSoundBut.clearHomed {s : State} {a : Axis} (h : s.LensSoundBut a) {p : Phase}
    (record : p.record = none) (hl : (s.axis a).locked = true → p.underLock = true) :
    (s.clearHomed a p).lens.Sound := by
  rw [State.clearHomed_lens]
  exact h.put (h.placed.cleared record) hl

/-- FAULT with its last end, whichever it is (R78, R79, R183). -/
theorem State.LensSoundBut.faulted {s : State} {a : Axis} (h : s.LensSoundBut a) (x : LastEnd) :
    ((s.clearHomed a .fault).setLastEnd a x).lens.Sound := by
  have cleared : (s.clearHomed a .fault).lens.Sound := h.clearHomed rfl fun _ => rfl
  have axis := cleared.axis a
  refine (cleared.but a).put (axis.placed.cleared ?_ ?_ ?_) fun _ => ?_ <;> rw [State.axis_clearHomed] <;> rfl

theorem Lens.Sound.enterFault {s : State} (h : s.lens.Sound) (a : Axis) (r : FaultReason) :
    (s.enterFault a r).lens.Sound := by
  have faulted := (h.but a).faulted (.fault r)
  unfold State.enterFault
  split
  · exact h
  all_goals exact Lens.Sound.makePending (by exact faulted) _

theorem Lens.Sound.checkDriver {s : State} (h : s.lens.Sound) (a : Axis) : (s.checkDriver a).lens.Sound := by
  unfold State.checkDriver
  split
  · exact h.enterFault a _
  · exact h

section Moves

variable {s : State} {a : Axis} (h : s.LensSoundBut a)

include h

/-- A leg begins on an axis free of locks (R65, R75). -/
theorem State.LensSoundBut.beginLeg (free : (s.axis a).locked = false) {m : MoveRec} {n : Nat}
    (hm : m.Sound (s.axis a).cal.max (s.axis a).pos) (hn : 1 ≤ n ∧ n ≤ m.legs.length) :
    (s.beginLeg a m n).lens.Sound := by
  unfold State.beginLeg
  simp only
  refine Lens.Sound.checkDriver (h.putFree free ?_) a
  exact h.placed.homed rfl h.placed.position (hm.restart hn).moving

theorem State.LensSoundBut.beginMove (free : (s.axis a).locked = false) {target : Nat}
    (ht : target ≤ (s.axis a).cal.max) (o : Owner) (n : Nat) : (s.beginMove a target o n).lens.Sound := by
  have legs := (legsOf_spec (s.axis a).pos target (s.axis a).cal.backlash (s.axis a).cal.max (s.approach a) ht).1
  unfold State.beginMove
  simp only
  split
  · exact h.completeMove o
  · rename_i e
    rw [e] at legs
    exact h.beginLeg free ⟨ht, legs, by simp, fun _ _ => Nat.zero_le _⟩ (by simp)

/-- A stop acts on its intent (R71); only under a lock does it have to end in IDLE. -/
theorem State.LensSoundBut.stand {intent : StopIntent} {m : MoveRec}
    (hm : m.Sound (s.axis a).cal.max (s.axis a).pos) (ht : ∀ t, intent = .retarget t → t ≤ (s.axis a).cal.max)
    (hh : intent = .holding → (s.axis a).locked = false) : (s.stand a intent m).lens.Sound := by
  cases intent with
  | idle r => exact h.standIdle r m
  | holding =>
    exact h.putFree (hh rfl) (h.placed.homed rfl h.placed.position hm.holding)
  | retarget t =>
    unfold State.stand
    simp only
    split
    · exact h.standIdle _ m
    · rename_i free
      exact h.beginMove (by simpa using free) (ht t rfl) _ _

theorem State.LensSoundBut.decelerate (free : (s.axis a).locked = false) {intent : StopIntent} {m : MoveRec}
    (hm : m.Sound (s.axis a).cal.max (s.axis a).pos) (ht : ∀ t, intent = .retarget t → t ≤ (s.axis a).cal.max) :
    (s.decelerate a intent m).lens.Sound := by
  unfold State.decelerate
  split
  · exact h.stand hm ht fun _ => free
  · exact h.slow hm ht fun locked => absurd (free.symm.trans locked) (by decide)

theorem State.LensSoundBut.legOver (free : (s.axis a).locked = false) {m : MoveRec}
    (hm : m.Sound (s.axis a).cal.max (s.axis a).pos) : (s.legOver a m).lens.Sound := by
  unfold State.legOver
  split
  · exact h.beginLeg free hm (by omega)
  · exact h.completeMove _

theorem State.LensSoundBut.resumeMove (free : (s.axis a).locked = false) {m : MoveRec}
    (hm : m.Sound (s.axis a).cal.max (s.axis a).pos) : (s.resumeMove a m).lens.Sound := by
  unfold State.resumeMove
  split
  · split
    · exact h.legOver free hm
    · exact h.beginLeg free hm hm.current
  · exact h.legOver free hm

end Moves

end Sys2Proof.Machine

namespace Sys2Proof.Machine

/-! ### Events of an axis -/

theorem Lens.Sound.stepMoving {s : State} (h : s.lens.Sound) {a : Axis} {m : MoveRec} {leg : Leg}
    (hp : (s.axis a).phase = .moving m) (hleg : m.leg = some leg) : (s.stepMoving a m leg).lens.Sound := by
  have sound := h.axis a
  have free := sound.unlocked (by rw [hp]; rfl)
  have hm := sound.record m (by rw [hp]; rfl)
  unfold State.stepMoving
  simp only
  split
  · exact (h.but a).legOver free hm
  · rename_i going
    have stop : leg.stop ≤ (s.axis a).cal.max := hm.legs leg (List.mem_of_getElem? hleg)
    have moved := hm.stepped (i := rampIndex m.profile m.k (leg.rest (s.axis a).pos - 1)) hleg sound.position
      (by unfold rampIndex; omega)
    have placed : AxisUnit.Placed { s.axis a with
        phase := .moving (m.stepped (rampIndex m.profile m.k (leg.rest (s.axis a).pos - 1)))
        pos := leg.step (s.axis a).pos, pulses := (s.axis a).pulses + 1 } a :=
      sound.placed.homed rfl (Leg.step_spec stop sound.position going).1 moved.moving
    split
    · refine ((h.but a).setAxis placed).legOver ?_ ?_ <;> rw [State.axis_setAxis_same]
      · exact free
      · exact moved
    · exact (h.but a).putFree free placed

theorem Lens.Sound.stepStopping {s : State} (h : s.lens.Sound) {a : Axis} {m : MoveRec} {intent : StopIntent}
    {left : Nat} {leg : Leg} (hp : (s.axis a).phase = .stopping m intent left) (hleg : m.leg = some leg) :
    (s.stepStopping a m intent left leg).lens.Sound := by
  have sound := h.axis a
  have hm := sound.record m (by rw [hp]; rfl)
  obtain ⟨room, target⟩ := sound.stopping m intent left hp
  have room := room leg hleg
  have free : intent = .holding → (s.axis a).locked = false := by
    rintro rfl
    exact sound.unlocked (by rw [hp]; rfl)
  unfold State.stepStopping
  simp only
  split
  · exact (h.but a).stand hm target free
  · have stop : leg.stop ≤ (s.axis a).cal.max := hm.legs leg (List.mem_of_getElem? hleg)
    obtain ⟨pos, rest⟩ := Leg.step_spec stop sound.position (by omega)
    have moved := hm.stepped (i := left - 1) hleg sound.position (by omega)
    have placed : AxisUnit.Placed { s.axis a with
        phase := .stopping (m.stepped (left - 1)) intent (left - 1)
        pos := leg.step (s.axis a).pos, pulses := (s.axis a).pulses + 1 } a :=
      sound.placed.homed rfl pos (moved.stopping (moved.slowing) target)
    split
    · refine ((h.but a).setAxis placed).stand ?_ ?_ ?_ <;> rw [State.axis_setAxis_same]
      · exact moved
      · exact target
      · exact free
    · refine (h.but a).put placed fun locked => ?_
      have under := sound.locked locked
      rw [hp] at under
      cases intent with
      | idle r => rfl
      | holding | retarget t => exact under

theorem Lens.Sound.stepHoming {s : State} (h : s.lens.Sound) {a : Axis} {run : HomingRun}
    (hp : (s.axis a).phase = .homing run) : (s.stepHoming a run).lens.Sound := by
  have on {next : HomingRun} : AxisUnit.Placed
      { s.axis a with phase := .homing next, pulses := (s.axis a).pulses + 1 } a := (h.but a).homingOn hp rfl
  unfold State.stepHoming
  split
  · simp only
    split
    · exact ((h.but a).setAxis on).standUnhomed _
    · exact (h.but a).put on fun _ => rfl
  · rename_i going
    split
    · exact (h.but a).putFree ((h.axis a).unlocked (by rw [hp]; simp [Phase.underLock, going])) on
    · exact h

theorem Lens.Sound.stepAxis {s : State} (h : s.lens.Sound) (a : Axis) : (s.stepAxis a).lens.Sound := by
  unfold State.stepAxis
  split <;> rename_i hp
  · split
    · rename_i hleg; exact h.stepMoving hp hleg
    · exact h
  · split
    · rename_i hleg; exact h.stepStopping hp hleg
    · exact h
  · exact h.stepHoming hp
  all_goals exact h

/-- A closure leaves the axis IDLE and homed at 0 with its ring (R77). -/
theorem Lens.Sound.closeOnMove {s : State} (h : s.lens.Sound) (a : Axis) (m : MoveRec) :
    (s.closeOnMove a m).lens.Sound := by
  have zeroed (x : LastEnd) :
      (((s.setAxis a { s.axis a with phase := .idle, pos := 0, lastEnd := x }).reportStopped a m.owner).rezeroFocus
        a).lens.Sound := by
    rw [State.rezeroFocus_lens, State.reportStopped_lens]
    exact (h.but a).put ((h.axis a).placed.homed rfl (Nat.zero_le _) (Phase.within_of_none rfl _ _)) fun _ => rfl
  unfold State.closeOnMove
  simp only
  split
  · exact Lens.Sound.makePending (by exact zeroed _) _
  · exact zeroed _

/-- BACKOFF follows SEEK on an axis that no lock has stopped (R182). -/
theorem Lens.Sound.beginHomingLeg {s : State} (h : s.lens.Sound) {a : Axis} {run : HomingRun}
    (hp : (s.axis a).phase = .homing run) (going : run.halt = none) (p : HomingPhase) :
    (s.beginHomingLeg a p).lens.Sound := by
  have free := (h.axis a).unlocked (by rw [hp]; simp [Phase.underLock, going])
  refine Lens.Sound.checkDriver ((h.but a).putFree free ?_) a
  exact (h.but a).homingOn hp rfl

theorem Lens.Sound.switchCloses {s : State} (h : s.lens.Sound) (a : Axis) : (s.switchCloses a).lens.Sound := by
  unfold State.switchCloses
  split <;> rename_i hp
  · exact h.closeOnMove a _
  · exact h.closeOnMove a _
  · split
    · exact (h.but a).standUnhomed _
    · rename_i going _; exact h.beginHomingLeg hp going _
    · exact h
  all_goals exact h

theorem Lens.Sound.switchOpens {s : State} (h : s.lens.Sound) (a : Axis) : (s.switchOpens a).lens.Sound := by
  unfold State.switchOpens
  split
  · split
    · exact (h.but a).standUnhomed _
    · exact (h.but a).put ((h.axis a).placed.homed rfl (Nat.zero_le _) (Phase.within_of_none rfl _ _)) fun _ => rfl
    · exact h
  all_goals exact h

theorem Lens.Sound.boundReached {s : State} (h : s.lens.Sound) (a : Axis) : (s.boundReached a).lens.Sound := by
  have faulted (x : LastEnd) := (h.but a).faulted x
  unfold State.boundReached
  split
  · split
    · exact h
    · split
      · exact h
      · exact Lens.Sound.makePending (by exact faulted _) _
  all_goals exact h

theorem Lens.Sound.legTimeout {s : State} (h : s.lens.Sound) (a : Axis) : (s.legTimeout a).lens.Sound := by
  unfold State.legTimeout
  split
  · exact h.enterFault a _
  · exact h.enterFault a _
  all_goals exact h

/-! ### Messages to the lens controller -/

theorem Lens.Sound.stopAxis {s : State} (h : s.lens.Sound) (a : Axis) : (s.stopAxis a).lens.Sound := by
  unfold State.stopAxis
  split <;> rename_i hp
  · exact (h.but a).haltMove _ (by rw [hp]; rfl)
  · exact (h.but a).standIdle _ _
  · exact (h.but a).haltHoming _ hp fun _ => h
  all_goals exact h

/-- The checks of MOVE and RETURN leave only an IDLE axis without a lock (R66, R70). -/
theorem AxisUnit.refusesMove_eq_none {u : AxisUnit} :
    u.refusesMove = none ↔ u.phase = .idle ∧ u.locked = false := by
  unfold AxisUnit.refusesMove AxisUnit.homed
  cases u.phase <;> cases u.locked <;> simp [Phase.homed, Phase.inMove, Phase.record]

/-- A move begins on a standing axis whose ring is another within the travel. -/
theorem Lens.Sound.beginHosted {s : State} (h : s.lens.Sound) {a : Axis} (hr : (s.axis a).refusesMove = none)
    {ring : List Nat} (hring : ring.length ≤ 8 ∧ ∀ p ∈ ring, p ≤ (s.axis a).cal.max) {target : Nat}
    (ht : target ≤ (s.axis a).cal.max) (n : Nat) :
    (((s.handOver a target).setAxis a { s.axis a with ring := ring }).beginMove a target .commanded n).lens.Sound := by
  obtain ⟨idle, free⟩ := AxisUnit.refusesMove_eq_none.1 hr
  have sound := h.axis a
  have placed : AxisUnit.Placed { s.axis a with ring := ring } a :=
    ⟨sound.cal, fun no => by simp [AxisUnit.homed, idle, Phase.homed] at no, sound.position, hring,
      Phase.within_of_none (by simp [idle, Phase.record]) _ _⟩
  have given := ((h.but a).of_lens (s.handOver_lens a target)).setAxis placed
  refine given.beginMove ?_ ?_ _ _ <;> rw [State.axis_setAxis_same]
  · exact free
  · exact ht

theorem AxisUnit.push_eq (u : AxisUnit) (target : Nat) :
    u.push target = { u with ring := if target = u.pos then u.ring else (u.pos :: u.ring).take 8 } := by
  unfold AxisUnit.push
  split <;> rfl

theorem Lens.Sound.move {s : State} (h : s.lens.Sound) (p : List Word) : (moveBody p s).1.lens.Sound := by
  refine readyThen_keeps (P := fun t => t.lens.Sound) h fun f _ => ?_
  simp only
  split
  · exact h
  · rename_i accepted
    obtain ⟨length, within⟩ := (h.axis f.axis).ring
    have position := (h.axis f.axis).position
    rw [AxisUnit.push_eq]
    refine h.beginHosted accepted ?_ (Nat.min_le_right _ _) _
    split
    · exact ⟨length, within⟩
    · refine ⟨by simp, fun q hq => ?_⟩
      rcases List.mem_cons.1 (List.mem_of_mem_take hq) with rfl | hq
      · exact position
      · exact within q hq

theorem Lens.Sound.returnMove {s : State} (h : s.lens.Sound) (p : List Word) : (returnBody p s).1.lens.Sound := by
  refine readyThen_keeps (P := fun t => t.lens.Sound) h fun a _ => ?_
  simp only
  split
  · exact h
  · exact h
  · rename_i target ring accepted hring
    obtain ⟨length, within⟩ := (h.axis a).ring
    rw [hring] at length within
    exact h.beginHosted accepted ⟨by simp at length; omega, fun q hq => within q (List.mem_cons_of_mem _ hq)⟩
      (within target List.mem_cons_self) 1

theorem Lens.Sound.hold {s : State} (h : s.lens.Sound) (p : List Word) : (holdBody p s).1.lens.Sound := by
  refine readyThen_keeps (P := fun t => t.lens.Sound) h fun a _ => ?_
  split <;> rename_i hp
  · exact (h.but a).decelerate ((h.axis a).unlocked (by rw [hp]; rfl)) ((h.axis a).record _ (by rw [hp]; rfl))
      fun _ e => nomatch e
  all_goals exact h

theorem Lens.Sound.resume {s : State} (h : s.lens.Sound) (p : List Word) : (resumeBody p s).1.lens.Sound := by
  refine readyThen_keeps (P := fun t => t.lens.Sound) h fun a _ => ?_
  split
  · exact h
  · rename_i free
    split <;> rename_i hp
    · exact (h.but a).resumeMove (by simpa using free) ((h.axis a).record _ (by rw [hp]; rfl))
    all_goals exact h

/-- LENS_CAL: a homed axis stands within the new travel, and the ring keeps what lies within it (R60). -/
theorem Lens.Sound.lensCal {s : State} (h : s.lens.Sound) (p : List Word) : (lensCalBody p s).1.lens.Sound := by
  refine readyThen_keeps (P := fun t => t.lens.Sound) h fun (a, cal) fields => ?_
  simp only
  split
  · exact h
  · rename_i still
    split
    · exact h
    · rename_i inside
      have sound := h.axis a
      have record : (s.axis a).phase.record = none := by
        obtain ⟨move, _⟩ : (s.axis a).phase.inMove = false ∧ (s.axis a).phase.isHoming = false := by simpa using still
        simpa [Phase.inMove] using move
      refine (h.but a).put ⟨lensCalFields_sound fields, fun no => ?_, ?_, ?_, Phase.within_of_none record _ _⟩ sound.locked
      · obtain ⟨pos, ring⟩ := sound.unhomed no
        exact ⟨pos, by simp [ring]⟩
      · cases homed : (s.axis a).homed with
        | true => simpa [homed] using inside
        | false => rw [(sound.unhomed homed).1]; exact Nat.zero_le _
      · exact ⟨(List.length_filter_le _ _).trans sound.ring.1, fun q hq => by simpa using (List.mem_filter.1 hq).2⟩

theorem Lens.Sound.profileSet {s : State} (h : s.lens.Sound) (p : List Word) : (profileBody p s).1.lens.Sound := by
  refine readyThen_keeps (P := fun t => t.lens.Sound) h fun (n, x) fields => ?_
  refine ⟨h.axes, by simpa using h.four, fun q hq => ?_⟩
  rcases List.mem_or_eq_of_mem_set hq with hq | rfl
  · exact h.profiles q hq
  · exact (profileFields_sound fields).2

/-! ### HOME and PLACE -/

/-- A named axis at the beginning of its sequence (R181, R182). -/
def State.homingStart (s : State) (a : Axis) : AxisUnit :=
  let p : HomingPhase := if (s.pins.get a).switchClosed then .backoff else .seek
  { s.axis a with phase := .homing (s.homingLeg a p), pos := 0, ring := [], lastEnd := .none, dirOut := p.dir }

theorem State.enterHoming_lens (s : State) (a : Axis) :
    (s.enterHoming a).lens = (s.setAxis a (s.homingStart a)).lens := by
  cases a <;> rfl

theorem Lens.Sound.enterHoming {s : State} (h : s.lens.Sound) {a : Axis} (free : (s.axis a).locked = false) :
    (s.enterHoming a).lens.Sound := by
  rw [State.enterHoming_lens]
  exact (h.but a).putFree free ((h.axis a).placed.cleared rfl)

/-- All named axes enter HOMING, then each first leg is checked (R181). -/
theorem Lens.Sound.homeAxes {s : State} (h : s.lens.Sound) {as : List Axis}
    (free : ∀ a ∈ as, (s.axis a).locked = false) : (s.homeAxes as).lens.Sound := by
  have entered : (as.foldl State.enterHoming s).lens.Sound := by
    induction as generalizing s with
    | nil => exact h
    | cons a as ih =>
      refine ih (h.enterHoming (free a List.mem_cons_self)) fun b hb => ?_
      have near := s.near_enterHoming a
      rw [AxisUnit.locked, near.hostLock, near.protLock]
      exact free b (List.mem_cons_of_mem _ hb)
  refine foldl_keeps (P := fun t : State => t.lens.Sound) (fun t a ht => ?_) as entered
  unfold State.firstHomingLeg
  split
  · exact Lens.Sound.checkDriver ht a
  · exact ht

theorem Lens.Sound.home {s : State} (h : s.lens.Sound) (p : List Word) : (homeBody p s).1.lens.Sound := by
  refine readyThen_keeps (P := fun t => t.lens.Sound) h fun as _ => ?_
  split
  · exact h
  · rename_i free
    split
    · exact h
    · exact h.homeAxes (by simpa using free)

theorem Cal.lensTarget_le (c : Cal) (n : Int) : c.lensTarget n ≤ c.max := by
  have := (clampInt_range (lo := 0) (hi := c.max) (by omega) ((c.reference : Int) + roundDiv (n * 1024) c.pps)).2
  unfold Cal.lensTarget
  omega

theorem Lens.Sound.requestPlacement {s : State} (h : s.lens.Sound) {a : Axis} {target : Nat}
    (ht : target ≤ (s.axis a).cal.max) : (s.requestPlacement a target).lens.Sound := by
  have goal : ∀ t, StopIntent.retarget target = .retarget t → t ≤ (s.axis a).cal.max := by rintro _ ⟨⟩; exact ht
  unfold State.requestPlacement
  simp only
  split
  · exact h
  · rename_i locks
    have free : (s.axis a).locked = false := by simpa using locks
    have retargeted {m : MoveRec} {i : StopIntent} {left : Nat} (hp : (s.axis a).phase = .stopping m i left) :
        (s.setPhase a (.stopping m (.retarget target) left)).lens.Sound :=
      (h.but a).putFree free ((h.axis a).placed.homed rfl (h.axis a).position (MoveRec.Sound.stopping
        ((h.axis a).record m (by rw [hp]; rfl)) ((h.axis a).stopping m i left hp).1 goal))
    split <;> rename_i hp
    · exact (h.but a).beginMove free ht _ _
    · split
      · exact (h.but a).decelerate free ((h.axis a).record _ (by rw [hp]; rfl)) goal
      · exact h
    · split
      · exact (h.but a).beginMove free ht _ _
      · exact h
    · split
      · exact retargeted hp
      · exact h
    · split
      · exact retargeted hp
      · exact h
    all_goals exact h

theorem Lens.Sound.place {s : State} (h : s.lens.Sound) (p : List Word) : (placeBody p s).1.lens.Sound := by
  refine readyThen_keeps (P := fun t => t.lens.Sound) h fun (ox, oy) _ => ?_
  simp only
  repeat' split
  · exact h
  · exact h
  · exact h
  · unfold State.startPlacement
    refine Lens.Sound.requestPlacement (Lens.Sound.requestPlacement (by exact h) (Cal.lensTarget_le _ _)) ?_
    rw [(State.ripple_requestPlacement _ _ _).cal]
    exact Cal.lensTarget_le _ _

/-! ### Upkeep, fan updates and resets -/

theorem Lens.Sound.startUpkeep {s : State} (h : s.lens.Sound) (due : s.upkeepDue = true) :
    s.startUpkeep.lens.Sound := by
  have free : (s.axis .f).locked = false := by
    simp only [State.upkeepDue, Bool.and_eq_true, Bool.not_eq_true'] at due
    obtain ⟨⟨⟨_, free⟩, _⟩, _⟩ := due
    exact free
  have range := (clampInt_range (lo := 0) (hi := (s.axis .f).cal.max) (by omega)
    (s.focus.base + s.focus.desired)).2
  have begun : State.LensSoundBut { s with focus := { s.focus with record := some s.focus.desired } } .f :=
    (h.but .f).of_lens rfl
  refine begun.beginMove free ?_ _ _
  change (clampInt 0 (s.axis .f).cal.max _).toNat ≤ (s.axis .f).cal.max
  omega

theorem Lens.Sound.windowEnd {s : State} (h : s.lens.Sound) (x : Sensor) (sample : Int) :
    (s.windowEnd x sample).lens.Sound :=
  State.windowEnd_keeps (P := fun t => t.lens.Sound) (fun _ h => h) (fun _ y h => Lens.Sound.makePending h y)
    (fun _ _ h => h) (fun _ due h => Lens.Sound.startUpkeep h due) (fun _ h => h) h

theorem Lens.Sound.fanUpdate {s : State} (h : s.lens.Sound) : s.fanUpdate.lens.Sound :=
  State.fanUpdate_keeps (P := fun t => t.lens.Sound) (R := fun t => t.lens.Sound) (fun _ h => h)
    (fun _ x h => State.judgeFan_keeps (P := fun t => t.lens.Sound) (fun _ _ _ h => h)
      (fun _ y h => Lens.Sound.makePending h y) x h)
    (fun _ h => h) (fun _ _ h => h) h

theorem defaultProfiles_sound : ∀ p ∈ defaultProfiles, p.Sound := by
  have range : ∀ p ∈ defaultProfiles, 100 ≤ p.start ∧ (p.start ≤ p.top ∧ p.top ≤ 4000) ∧ p.ramp ≤ 2000 := by decide
  intro p hp
  obtain ⟨start, top, ramp⟩ := range p hp
  exact ⟨start, top, ramp⟩

theorem defaultCal_sound (a : Axis) : (defaultCal a).Sound a := by
  cases a <;> exact ⟨by decide, by decide, by decide, by decide⟩

theorem powerOnLens_sound : powerOnLens.Sound := by
  refine ⟨fun a => ?_, rfl, defaultProfiles_sound⟩
  have axis : powerOnLens.axes.get a = powerOnAxis a := by cases a <;> rfl
  rw [axis]
  exact AxisUnit.Placed.sound ⟨defaultCal_sound a, fun _ => ⟨rfl, rfl⟩, Nat.zero_le _, by simp [powerOnAxis],
    Phase.within_of_none rfl _ _⟩ fun _ => rfl

theorem Lens.Sound.softReset {l : Lens} (h : l.Sound) : l.softReset.Sound := by
  refine ⟨fun a => ?_, rfl, defaultProfiles_sound⟩
  have axis : l.softReset.axes.get a = (l.axes.get a).softReset := by cases a <;> rfl
  rw [axis]
  obtain ⟨cal, host, prot, _, stays, leaves⟩ := (l.axes.get a).softReset_spec
  have free : (l.axes.get a).softReset.locked = false := by rw [AxisUnit.locked, host, prot]; rfl
  refine AxisUnit.Placed.sound ?_ fun locked => absurd (free.symm.trans locked) (by decide)
  by_cases idle : (l.axes.get a).phase = .idle
  · obtain ⟨phase, pos, ring⟩ := stays idle
    exact (h.axes a).placed.homed (by rw [AxisUnit.homed, phase]; rfl) (by rw [pos]; exact (h.axes a).position)
      (Phase.within_of_none (by rw [phase]; rfl) _ _) cal ring
  · obtain ⟨phase, pos, ring⟩ := leaves idle
    exact (h.axes a).placed.cleared (by rw [phase]; rfl) pos ring cal

theorem Lens.Sound.softResetState {s : State} (h : s.lens.Sound) : s.softReset.lens.Sound := by
  have accepted : s.softAccepted.lens.Sound := h.softReset
  rw [State.softReset_eq]
  split
  · exact accepted
  · exact Lens.Sound.makePending (by exact accepted) _

/-! ### Protection -/

theorem Lens.Sound.checkEnds {s : State} (h : s.lens.Sound) (passed : Bool) : (s.checkEnds passed).lens.Sound := by
  unfold State.checkEnds
  simp only
  repeat' split
  · exact h
  · exact Lens.Sound.makePending (by exact h) _
  · exact h

theorem Lens.Sound.linkLoss {s : State} (h : s.lens.Sound) : s.linkLoss.lens.Sound := by
  unfold State.linkLoss
  simp only
  split
  · exact h
  · exact Lens.Sound.makePending (by exact h) _

theorem Lens.Sound.lower {s : State} (h : s.lens.Sound) (p : List Word) : (lowerBody p s).1.lens.Sound := by
  refine fieldsThen_keeps (P := fun t => t.lens.Sound) h fun w _ => ?_
  split
  · exact h
  · split
    · exact h
    · unfold State.lowerTo
      simp only
      split
      · exact h
      · exact Lens.Sound.deliver (by exact h)

theorem Lens.Sound.actions {s : State} (h : s.lens.Sound) (p : List Word) : (actionsBody p s).1.lens.Sound := by
  refine fieldsThen_keeps (P := fun t => t.lens.Sound) h fun table _ => ?_
  simp only
  split
  · exact Lens.Sound.deliver (by exact h)
  · exact h

/-! ### Every command -/

theorem State.blankingSlot_lens (s : State) (words : List Word) : (s.blankingSlot words).lens = s.lens := by
  unfold State.blankingSlot State.arrive
  simp only
  repeat' split
  all_goals rfl

theorem State.endGeneration_lens (s : State) : s.endGeneration.lens = s.lens := by
  unfold State.endGeneration
  simp only
  repeat' split
  all_goals rfl

/-- Command by command: the axis events and the lens messages, then what can deliver a lock; the rest leave the lens
controller. -/
theorem State.lensSound_kept : State.Kept fun s => s.lens.Sound where
  weaken _ h := h
  queue _ _ h := h
  ended _ _ _ _ h := h
  holding _ _ h := h
  powerOn _ _ _ := powerOnLens_sound
  checkEnds _ passed h := h.checkEnds passed
  frameStart s parity z h := by obtain ⟨_, _, _, _, _, _, _, e⟩ := s.inputFrameStart_frame parity z; rw [e]; exact h
  activeLine s xs h := by obtain ⟨_, _, e⟩ := s.activeLine_frame xs; rw [e]; exact h
  blankingSlot s words h := by rw [s.blankingSlot_lens]; exact h
  linkLoss _ h := h.linkLoss
  sendLine s h := by obtain ⟨_, e⟩ := s.sendLine_frame; rw [e]; exact h
  endFrame s h := by obtain ⟨_, _, e⟩ := s.endFrame_frame; rw [e]; exact h
  send s h := by obtain ⟨_, _, e⟩ := s.send_frame; rw [e]; exact h
  silent _ h := h
  fanUpdate _ h := h.fanUpdate
  tachPulse _ _ h := h
  windowEnd _ x sample h := h.windowEnd x sample
  stepAxis _ a h := h.stepAxis a
  pins _ _ _ h := h
  switchCloses _ a h := h.switchCloses a
  switchOpens _ a h := h.switchOpens a
  boundReached _ a h := h.boundReached a
  legTimeout _ a h := h.legTimeout a
  driverFault _ a h := h.enterFault a _
  endGeneration s h := by rw [s.endGeneration_lens]; exact h
  softReset _ h := h.softResetState
  stop _ _ h := readyThen_keeps (P := fun t => t.lens.Sound) h fun a _ => h.stopAxis a
  lock _ _ h := readyThen_keeps (P := fun t => t.lens.Sound) h fun a _ => h.setHostLock a true
  unlock _ _ h := readyThen_keeps (P := fun t => t.lens.Sound) h fun a _ => h.setHostLock a false
  clear s p h := by obtain ⟨_, e⟩ := clearBody_frame p s; rw [e]; exact h
  lower _ p h := h.lower p
  eventAck s p h := by obtain ⟨_, e⟩ := eventAckBody_frame p s; rw [e]; exact h
  move _ p h := h.move p
  hold _ p h := h.hold p
  resume _ p h := h.resume p
  returnMove _ p h := h.returnMove p
  home _ p h := h.home p
  place _ p h := h.place p
  placeCancel s p h := by obtain ⟨_, e⟩ := placeCancelBody_frame p s; rw [e]; exact h
  install s p h := by obtain ⟨_, e⟩ := installBody_frame p s; rw [e]; exact h
  pictureMode s p h := by obtain ⟨_, e⟩ := pictureModeBody_frame p s; rw [e]; exact h
  tableOpen s p h := by obtain ⟨_, e⟩ := tableOpenBody_frame p s; rw [e]; exact h
  tableRun s p h := by obtain ⟨_, e⟩ := tableRunBody_frame p s; rw [e]; exact h
  tableCommit s p h := by obtain ⟨_, e⟩ := tableCommitBody_frame p s; rw [e]; exact h
  corners s p h := by obtain ⟨_, _, e⟩ := cornersBody_frame p s; rw [e]; exact h
  lensCal _ p h := h.lensCal p
  profile _ p h := h.profileSet p
  focusTable s p h := by obtain ⟨_, e⟩ := focusTableBody_frame p s; rw [e]; exact h
  focusUpkeep s p h := by obtain ⟨_, e⟩ := focusUpkeepBody_frame p s; rw [e]; exact h
  sensorSet s p h := by obtain ⟨_, e⟩ := sensorSetBody_frame p s; rw [e]; exact h
  thresholds s p h := by obtain ⟨_, e⟩ := thresholdsBody_frame p s; rw [e]; exact h
  brightness s p h := by obtain ⟨_, e⟩ := brightnessBody_frame p s; rw [e]; exact h
  fanCurve s p h := by obtain ⟨_, e⟩ := fanCurveBody_frame p s; rw [e]; exact h
  fanLimits s p h := by obtain ⟨_, e⟩ := fanLimitsBody_frame p s; rw [e]; exact h
  quiet s p h := by obtain ⟨_, e⟩ := quietBody_frame p s; rw [e]; exact h
  levels _ _ h := fieldsThen_keeps (P := fun t => t.lens.Sound) h fun _ _ => Lens.Sound.accept (by exact h)
  actions _ p h := h.actions p
  eventMask s p h := by obtain ⟨_, e⟩ := eventMaskBody_frame p s; rw [e]; exact h
  queryCounters s p h := by obtain ⟨_, _, _, e⟩ := countersBody_frame p s; rw [e]; exact h
  queryCause s p h := by obtain ⟨_, e⟩ := causeBody_frame p s; rw [e]; exact h

/-- Settles O16: the promise of the axes is kept by each command's effect. -/
theorem axesStayWithinTravel : Obligations.AxesStayWithinTravel :=
  fun _ _ sound hstep => State.lensSound_kept.step sound hstep

end Sys2Proof.Machine

namespace Sys2Proof.Machine

/-! ### Ends of moves (R67, R71, R72, R75, R87, R100) -/

theorem State.axis_standIdle (s : State) (a : Axis) (r : HaltReason) (m : MoveRec) :
    (s.standIdle a r m).axis a = { s.axis a with phase := .idle, lastEnd := .stopped r.toStop } := by
  rw [State.axis, State.standIdle_lens]
  exact s.axis_setAxis_same a _

theorem State.axis_completeMove (s : State) (a : Axis) (o : Owner) :
    (s.completeMove a o).axis a = { s.axis a with phase := .idle, lastEnd := .completed } := by
  rw [State.axis, State.completeMove_lens]
  exact s.axis_setAxis_same a _

theorem State.axis_completeMove_ne (s : State) {a b : Axis} (o : Owner) (h : b ≠ a) :
    (s.completeMove a o).axis b = s.axis b := by
  rw [State.axis, State.completeMove_lens]
  exact s.axis_setAxis_ne _ h

theorem State.axis_standUnhomed (s : State) (a : Axis) (r : HaltReason) : (s.standUnhomed a r).axis a
    = { s.axis a with phase := .unhomed, pos := 0, ring := [], lastEnd := .homeFailed r.toHomeFailure } := by
  rw [State.axis, State.standUnhomed_lens]
  exact s.axis_setAxis_same a _

theorem State.standUnhomed_sender (s : State) (a : Axis) (r : HaltReason) :
    (s.standUnhomed a r).sender = s.sender.raise (.homeFailed a) := by
  cases a <;> rfl

theorem State.reportStopped_sender (s : State) (a : Axis) (o : Owner) : (s.reportStopped a o).sender = s.sender := by
  cases o <;> rfl

/-- A stop is told to the tracker by a placement move alone (R87). -/
theorem State.reportStopped_place (s : State) (a : Axis) (o : Owner) :
    (s.reportStopped a o).place = if o = .placement then s.place.moveEnded a true else s.place := by
  cases o <;> rfl

/-- And to focus upkeep by an upkeep move alone (R100). -/
theorem State.reportStopped_focus (s : State) (a : Axis) (o : Owner) :
    (s.reportStopped a o).focus = if o = .upkeep then { s.focus with record := none } else s.focus := by
  cases o <;> rfl

/-- A completion is told by owner (R67, R87, R100). -/
theorem State.reportCompleted_told (s : State) (a : Axis) (o : Owner) :
    (s.reportCompleted a o).sender = (if o = .commanded then s.sender.raise (.moveDone a) else s.sender)
      ∧ (s.reportCompleted a o).place = (if o = .placement then s.place.moveEnded a false else s.place)
      ∧ (s.reportCompleted a o).focus = (if o = .upkeep then
          { s.focus with applied := s.focus.record.getD s.focus.applied, record := none } else s.focus) := by
  cases o <;> exact ⟨rfl, rfl, rfl⟩

/-- In TRACKING each axis's report clears its own outstanding flag, and the second one makes the settle due (R87). -/
theorem Placement.moveEnded_of_tracking {p : Placement} (h : p.state = .tracking) (short : Bool) :
    p.moveEnded .v short = { p with
        outV := false, shortV := p.shortV || short, settleDue := p.settleDue || !p.outH }
      ∧ p.moveEnded .h short = { p with
        outH := false, shortH := p.shortH || short, settleDue := p.settleDue || !p.outV } := by
  simp [Placement.moveEnded, h]

/-- Settles O52: each end's update of the axis, and its report by owner. -/
theorem endsOfMovesAreTold : Obligations.EndsOfMovesAreTold := by
  intro s a m r o
  refine ⟨⟨?_, State.reportStopped_sender _ _ _, State.reportStopped_place _ _ _, State.reportStopped_focus _ _ _⟩,
    ⟨s.axis_completeMove a o, State.reportCompleted_told _ _ _⟩, ⟨?_, ?_, ?_, ?_, s.standUnhomed_sender a r⟩,
    fun b hb => ⟨s.axis_standIdle_ne r m hb, s.axis_completeMove_ne o hb, s.axis_standUnhomed_ne r hb⟩,
    fun tracking short => ?_⟩
  · rw [State.axis_standIdle]
    cases r <;> rfl
  · rw [State.axis_standUnhomed]
  · rw [State.axis_standUnhomed]
  · rw [State.axis_standUnhomed]
  · rw [State.axis_standUnhomed]
    cases r <;> rfl
  · obtain ⟨v, h⟩ := Placement.moveEnded_of_tracking tracking short
    rw [v, h]
    refine ⟨rfl, rfl, rfl, rfl, fun out => ?_, fun out => ?_⟩ <;> simp [out]

/-! ### What a delivery's lock leaves alone (R75, R153) -/

/-- A lock changes no phase that may stand under one. -/
theorem State.lockEffect_of_underLock {s : State} {a : Axis} (h : (s.axis a).phase.underLock = true) :
    s.lockEffect a = s := by
  unfold State.lockEffect
  split <;> rename_i hp <;> rw [hp] at h
  case h_6 run =>
    obtain ⟨x, halted⟩ := Option.isSome_iff_exists.1 h
    simp [State.haltHoming, halted]
  all_goals first | rfl | cases h

/-- The lock level `on` does not begin to forbid anything that axis a is doing. -/
def State.LockKeeps (s : State) (on : Bool) (a : Axis) : Prop :=
  on = false ∨ (s.axis a).locked = true ∨ (s.axis a).phase.underLock = true

theorem State.LockKeeps.setProtLock {s : State} {on : Bool} {a : Axis} (h : s.LockKeeps on a) :
    s.setProtLock a on = s.setAxis a { s.axis a with protLock := on } := by
  unfold State.setProtLock
  simp only
  split
  · rename_i first
    obtain ⟨hon, free⟩ : on = true ∧ (s.axis a).locked = false := by simpa using first
    rcases h with h | h | h
    · exact absurd (hon.symm.trans h) (by decide)
    · exact absurd (free.symm.trans h) (by decide)
    · exact State.lockEffect_of_underLock (by rw [State.axis_setAxis_same]; exact h)
  · rfl

theorem State.LockKeeps.of_axis {s t : State} {on : Bool} {a : Axis} (h : s.LockKeeps on a)
    (e : t.axis a = s.axis a) : t.LockKeeps on a := by
  rwa [State.LockKeeps, e]

/-- Where the lock keeps an axis, a delivery sets or clears its protection lock alone. -/
theorem State.LockKeeps.axis_deliver {s : State} {a : Axis}
    (h : s.LockKeeps (s.prot.table.actions s.prot.c).lensLock a) :
    s.deliver.axis a = { s.axis a with protLock := (s.prot.table.actions s.prot.c).lensLock } := by
  have own {q : State} (e : q.axis a = s.axis a) :
      (q.setProtLock a (s.prot.table.actions s.prot.c).lensLock).axis a
        = { s.axis a with protLock := (s.prot.table.actions s.prot.c).lensLock } := by
    rw [(h.of_axis e).setProtLock, State.axis_setAxis_same, e]
  rw [State.deliver_eq]
  cases a with
  | v =>
    rw [State.axis_setProtLock_ne _ _ (by decide), State.axis_setProtLock_ne _ _ (by decide)]
    exact own rfl
  | h =>
    rw [State.axis_setProtLock_ne _ _ (by decide)]
    exact own (State.axis_setProtLock_ne _ _ (by decide))
  | f =>
    exact own ((State.axis_setProtLock_ne _ _ (by decide)).trans (State.axis_setProtLock_ne _ _ (by decide)))

/-- Where it keeps every axis, no move ends and the tracker is told nothing. -/
theorem State.place_deliver_of_lockKeeps {s : State}
    (h : ∀ a, s.LockKeeps (s.prot.table.actions s.prot.c).lensLock a) : s.deliver.place = s.place := by
  have v := ((h .v).of_axis (t := s.delivering) rfl).setProtLock
  have hh := ((h .h).of_axis (t := s.delivering.setProtLock .v (s.prot.table.actions s.prot.c).lensLock)
    (State.axis_setProtLock_ne _ _ (by decide))).setProtLock
  have f := ((h .f).of_axis (t := (s.delivering.setProtLock .v (s.prot.table.actions s.prot.c).lensLock).setProtLock .h
    (s.prot.table.actions s.prot.c).lensLock)
    ((State.axis_setProtLock_ne _ _ (by decide)).trans (State.axis_setProtLock_ne _ _ (by decide)))).setProtLock
  rw [State.deliver_eq, f, State.setAxis_place, hh, State.setAxis_place, v, State.setAxis_place]
  rfl

/-- A source made pending at an axis that the level's lock keeps: nothing beyond the protection lock. -/
theorem State.axis_makePending_of_lockKeeps {s : State} {x : Source} {a : Axis}
    (h : s.LockKeeps ((s.makePending x).axis a).protLock a) :
    (s.makePending x).axis a = { s.axis a with protLock := ((s.makePending x).axis a).protLock } := by
  rcases s.makePending_delivers x with ⟨r, e, lens, -, -⟩ | ⟨r, e, lens, -, -⟩ <;> rw [e] at h ⊢ <;>
    have same : r.axis a = s.axis a := by unfold State.axis; rw [lens]
  · rw [same]
  · rw [State.deliver_protLock] at h ⊢
    rw [(h.of_axis same).axis_deliver, same]

theorem State.place_makePending_of_lockKeeps {s : State} {x : Source}
    (h : ∀ a, s.LockKeeps ((s.makePending x).axis a).protLock a) : (s.makePending x).place = s.place := by
  rcases s.makePending_delivers x with ⟨r, e, lens, place, -⟩ | ⟨r, e, lens, place, -⟩ <;> rw [e] at h ⊢
  · exact place
  · refine (State.place_deliver_of_lockKeeps fun a => ?_).trans place
    have kept := h a
    rw [State.deliver_protLock] at kept
    exact kept.of_axis (by unfold State.axis; rw [lens])

/-- An ended placement stays ended. -/
theorem State.place_makePending_of_cancelled {s : State} (h : s.place.cancelled = s.place) (x : Source) :
    (s.makePending x).place = s.place := by
  rcases s.makePending_delivers x with ⟨r, e, -, place, -⟩ | ⟨r, e, -, place, -⟩ <;> rw [e]
  · exact place
  · rw [r.place_deliver (by rw [place]; exact h), place]

/-- A cleared focus state stays cleared. -/
theorem State.focus_makePending_of_cleared {s : State} (h : s.focus.cleared = s.focus) (x : Source) :
    (s.makePending x).focus = s.focus := by
  rcases s.makePending_delivers x with ⟨r, e, -, -, focus⟩ | ⟨r, e, -, -, focus⟩ <;> rw [e]
  · exact focus
  · rw [r.focus_deliver (by rw [focus]; exact h), focus]

/-! ### An axis taken out of service (R57, R78, R79, R183) -/

/-- Axis a of `q` has gone to FAULT with last end x, its events are raised, and LENS_FAULT is still to be made
pending. -/
structure State.TakenOut (s q : State) (a : Axis) (x : LastEnd) : Prop where
  near : s.Near q
  axis : q.axis a = { s.axis a with phase := .fault, pos := 0, ring := [], lastEnd := x }
  place : a ≠ .f → q.place = s.place.cancelled
  focus : a = .f → q.focus = s.focus.cleared

theorem State.TakenOut.raise {s q : State} {a : Axis} {x : LastEnd} (h : s.TakenOut q a x) (e : EventFlag) :
    s.TakenOut (q.raise e) a x :=
  ⟨h.near.trans (q.near_raise e), h.axis, h.place, h.focus⟩

theorem State.takenOut (s : State) (a : Axis) (x : LastEnd) :
    s.TakenOut ((s.clearHomed a .fault).setLastEnd a x) a x where
  near := (s.near_clearHomed a _).trans (State.near_setLastEnd _ _ _)
  axis := by rw [State.setLastEnd, State.axis_setAxis_same, State.axis_clearHomed]
  place h := by cases a <;> first | rfl | exact absurd rfl h
  focus h := by subst h; rfl

/-- LENS_FAULT made pending leaves the axis, the ended placement and the cleared focus state as they are. -/
theorem State.TakenOut.pended {s q : State} {a : Axis} {x : LastEnd} (h : s.TakenOut q a x) :
    ∃ lock, (q.makePending .lensFault).axis a
        = { s.axis a with phase := .fault, pos := 0, ring := [], lastEnd := x, protLock := lock }
      ∧ (q.makePending .lensFault).prot.pending.get .lensFault = true
      ∧ (a ≠ .f → (q.makePending .lensFault).place = s.place.cancelled)
      ∧ (a = .f → (q.makePending .lensFault).focus = s.focus.cleared) := by
  refine ⟨((q.makePending .lensFault).axis a).protLock, ?_, State.makePending_get _ _, fun notF => ?_, fun isF => ?_⟩
  · rw [State.axis_makePending_of_lockKeeps (.inr (.inr (by rw [h.axis]; rfl))), h.axis]
  · rw [State.place_makePending_of_cancelled (by rw [h.place notF]; rfl), h.place notF]
  · rw [State.focus_makePending_of_cleared (by rw [h.focus isF]; rfl), h.focus isF]

/-- A timeout or a driver fault takes the axis out, with AXIS_FAULT, and HOME_FAILED out of HOMING (R78, R79). -/
theorem State.enterFault_takesOut {s : State} {a : Axis} (r : FaultReason) (h : (s.axis a).phase ≠ .fault) :
    ∃ q, s.enterFault a r = q.makePending .lensFault ∧ s.TakenOut q a (.fault r)
      ∧ q.sender.has (.axisFault a) = true
      ∧ ((s.axis a).phase.isHoming = true → q.sender.has (.homeFailed a) = true) := by
  have out := s.takenOut a (.fault r)
  unfold State.enterFault
  split <;> rename_i hp
  · exact absurd hp h
  · exact ⟨_, rfl, (out.raise _).raise _, Sender.has_raise _ _,
      fun _ => (Sender.grows_raise _ _).has (Sender.has_raise _ _)⟩
  all_goals
    refine ⟨_, rfl, out.raise _, Sender.has_raise _ _, fun homing => ?_⟩
    rw [hp] at homing
    cases homing

theorem exec_moveTimeout {s : State} (h : s.hold.held = false) (a : Axis) :
    exec (.moveTimeout a) s = .next (s.legTimeout a) :=
  whenReleased_eq h (·.legTimeout a)

theorem exec_homingBoundReached {s : State} (h : s.hold.held = false) (a : Axis) :
    exec (.homingBoundReached a) s = .next (s.boundReached a) :=
  whenReleased_eq h (·.boundReached a)

theorem exec_driverFault {s : State} (h : s.hold.held = false) (a : Axis) (on : Bool) :
    exec (.driverFault a on) s = .next (
      if on then (s.setPin a { s.pins.get a with driverFault := on }).enterFault a .driver
      else s.setPin a { s.pins.get a with driverFault := on }) :=
  whenReleased_eq (s := s.setPin a { s.pins.get a with driverFault := on }) h _

/-- The homing bound takes the axis out with its reason (R183). -/
theorem State.boundReached_takesOut {s : State} {a : Axis} {run : HomingRun} (hp : (s.axis a).phase = .homing run)
    (going : run.halt = none) (bound : run.bound ≤ run.steps) :
    ∃ q, s.boundReached a = q.makePending .lensFault
      ∧ s.TakenOut q a (.homeFailed (match run.phase with
        | .seek => .noSwitch
        | .backoff => .stuckSwitch))
      ∧ q.sender.has (.homeFailed a) = true := by
  refine ⟨_, ?_, (s.takenOut a _).raise (.homeFailed a), Sender.has_raise _ _⟩
  simp only [State.boundReached, hp, going]
  exact if_neg (by omega)

/-- Settles O57: each event takes the axis out, and LENS_FAULT's delivery leaves that so. -/
theorem axisFaultsTakeEffectAtOnce : Obligations.AxisFaultsTakeEffectAtOnce := by
  intro s a released
  simp only
  have faulted {s₀ q : State} {x : LastEnd} (out : s₀.TakenOut q a x) :
      let t := q.makePending .lensFault
      ((t.axis a).phase = .fault ∧ (t.axis a).pos = 0 ∧ (t.axis a).ring = []
        ∧ t.prot.pending.get .lensFault = true ∧ (a ≠ Axis.f → t.place.state = .none)
        ∧ (a = Axis.f → t.focus.base = 0 ∧ t.focus.applied = 0 ∧ t.focus.record = none)
        ∧ t.startup = s₀.startup ∧ t.link = s₀.link ∧ t.intake = s₀.intake ∧ t.table = s₀.table ∧ t.gen = s₀.gen
        ∧ t.mem = s₀.mem ∧ t.sensors = s₀.sensors ∧ t.hold = s₀.hold ∧ t.pending = s₀.pending)
      ∧ (t.axis a).lastEnd = x ∧ s₀.Ripple t ∧ q.sender.Grows t.sender := by
    obtain ⟨lock, axis, pending, place, focus⟩ := out.pended
    have own := q.ripple_makePending .lensFault
    have r := out.near.ripple.trans own
    refine ⟨⟨by rw [axis], by rw [axis], by rw [axis], pending, fun notF => by rw [place notF]; rfl,
      fun isF => by rw [focus isF]; exact ⟨rfl, rfl, rfl⟩, r.startup, r.link, r.intake, r.table, r.gen, r.mem,
      r.sensors, r.hold, r.pending⟩, by rw [axis], r, own.sender⟩
  refine ⟨fun moving => ?_, fun other => ?_, fun fault => ?_, ?_, fun run hp going short => ?_,
    fun run hp going bound => ?_⟩
  · have timeout : s.legTimeout a = s.enterFault a .timeout := by
      unfold State.legTimeout
      rcases moving with ⟨m, hp⟩ | ⟨m, i, l, hp⟩ <;> rw [hp]
    have other : (s.axis a).phase ≠ .fault := by
      rcases moving with ⟨m, hp⟩ | ⟨m, i, l, hp⟩ <;> rw [hp] <;> exact fun e => nomatch e
    obtain ⟨q, e, out, event, -⟩ := State.enterFault_takesOut .timeout other
    obtain ⟨all, lastEnd, -, grows⟩ := faulted out
    exact ⟨_, by rw [exec_moveTimeout released, timeout, e], all, lastEnd, grows.has event⟩
  · obtain ⟨q, e, out, event, homing⟩ :=
      State.enterFault_takesOut (s := s.setPin a { s.pins.get a with driverFault := true }) .driver other
    obtain ⟨all, lastEnd, r, grows⟩ := faulted out
    exact ⟨_, by rw [exec_driverFault released, if_pos rfl, e], all, lastEnd, grows.has event, r.pins,
      fun h => grows.has (homing h)⟩
  · rw [exec_driverFault released, if_pos rfl, State.enterFault]
    have same : ((s.setPin a { s.pins.get a with driverFault := true }).axis a).phase = .fault := fault
    rw [same]
    rfl
  · rw [exec_driverFault released]
    rfl
  · rw [exec_homingBoundReached released, State.boundReached, hp]
    simp only [going]
    rw [if_pos short]
  · obtain ⟨q, e, out, event⟩ := State.boundReached_takesOut hp going bound
    obtain ⟨all, lastEnd, -, grows⟩ := faulted out
    exact ⟨_, by rw [exec_homingBoundReached released, e], all, grows.has event, lastEnd⟩

end Sys2Proof.Machine

namespace Sys2Proof.Machine

/-! ### The low limit switch (R77, R79, R87, R98, R182, R183) -/

theorem exec_limitSwitchClose {s : State} (h : s.hold.held = false) (a : Axis) :
    exec (.limitSwitchClose a) s = .next ((s.setPin a { s.pins.get a with switchClosed := true }).switchCloses a) :=
  whenReleased_eq (s := s.setPin a { s.pins.get a with switchClosed := true }) h (·.switchCloses a)

theorem exec_limitSwitchOpen {s : State} (h : s.hold.held = false) (a : Axis) :
    exec (.limitSwitchOpen a) s = .next ((s.setPin a { s.pins.get a with switchClosed := false }).switchOpens a) :=
  whenReleased_eq (s := s.setPin a { s.pins.get a with switchClosed := false }) h (·.switchOpens a)

/-- A closure acts on the record of an axis that moves or decelerates. -/
theorem State.switchCloses_of_record {s : State} {a : Axis} {m : MoveRec} (hm : (s.axis a).phase.record = some m)
    (moves : ∀ q, (s.axis a).phase ≠ .holding q) : s.switchCloses a = s.closeOnMove a m := by
  unfold State.switchCloses
  split <;> rename_i hp <;> rw [hp] at hm
  case h_6 => exact absurd hp (moves _)
  all_goals cases hm; try rfl

/-- The axis zeroed by a closure, its end told to the tracker and to focus upkeep, before SLIP or STOPPED. -/
def State.zeroed (s : State) (a : Axis) (m : MoveRec) (x : LastEnd) : State :=
  ((s.setAxis a { s.axis a with phase := .idle, pos := 0, lastEnd := x }).reportStopped a m.owner).rezeroFocus a

theorem State.closeOnMove_eq (s : State) (a : Axis) (m : MoveRec) : s.closeOnMove a m =
    if (s.axis a).cal.slipTolerance < (s.axis a).pos then
      ((s.zeroed a m .slip).raise (.slip a)).makePending .lensFault
    else (s.zeroed a m (.stopped .limit)).raise (.stopped a) := by
  unfold State.closeOnMove State.zeroed
  simp only
  split <;> rfl

section Zeroed

variable (s : State) (a : Axis) (m : MoveRec) (x : LastEnd)

theorem State.near_zeroed : s.Near (s.zeroed a m x) :=
  ((s.near_setAxis a _).trans (State.near_reportStopped _ _ _)).trans (State.near_rezeroFocus _ _)

theorem State.zeroed_lens :
    (s.zeroed a m x).lens = (s.setAxis a { s.axis a with phase := .idle, pos := 0, lastEnd := x }).lens := by
  simp [State.zeroed]

theorem State.axis_zeroed : (s.zeroed a m x).axis a = { s.axis a with phase := .idle, pos := 0, lastEnd := x } := by
  rw [State.axis, State.zeroed_lens]
  exact s.axis_setAxis_same a _

theorem State.axis_zeroed_ne {b : Axis} (h : b ≠ a) : (s.zeroed a m x).axis b = s.axis b := by
  rw [State.axis, State.zeroed_lens]
  exact s.axis_setAxis_ne _ h

theorem State.zeroed_sender : (s.zeroed a m x).sender = s.sender := by
  unfold State.zeroed State.rezeroFocus
  split <;> exact State.reportStopped_sender _ _ _

theorem State.zeroed_place :
    (s.zeroed a m x).place = if m.owner = .placement then s.place.moveEnded a true else s.place := by
  unfold State.zeroed State.rezeroFocus
  split <;> exact State.reportStopped_place _ _ _

theorem State.zeroed_focus : (s.zeroed .f m x).focus.base = 0 ∧ (s.zeroed .f m x).focus.applied = 0
    ∧ (s.zeroed .f m x).focus.record = none := ⟨rfl, rfl, rfl⟩

end Zeroed

/-- What a closure on a moving axis leaves of the other axes and of the placement (R77, R87): all of them within the
tolerance, and beyond it what the level of LENS_FAULT does not newly lock. -/
theorem State.closeOnMove_others (s : State) (a : Axis) (m : MoveRec) :
    let t := s.closeOnMove a m
    let told := if m.owner = .placement then s.place.moveEnded a true else s.place
    ((s.axis a).pos ≤ (s.axis a).cal.slipTolerance → t.place = told ∧ ∀ b, b ≠ a → t.axis b = s.axis b)
    ∧ (∀ b, b ≠ a → (t.axis b).protLock = false ∨ (s.axis b).locked = true →
        t.axis b = { s.axis b with protLock := (t.axis b).protLock })
    ∧ ((∀ b, b ≠ a → (t.axis b).protLock = false ∨ (s.axis b).locked = true) → t.place = told) := by
  intro t told
  have place (x : LastEnd) : (s.zeroed a m x).place = told := s.zeroed_place a m x
  by_cases slips : (s.axis a).cal.slipTolerance < (s.axis a).pos
  · obtain ⟨q, hq⟩ : ∃ q, q = (s.zeroed a m .slip).raise (.slip a) := ⟨_, rfl⟩
    have other {b : Axis} (hb : b ≠ a) : q.axis b = s.axis b := by rw [hq]; exact s.axis_zeroed_ne a m _ hb
    have own : q.axis a = { s.axis a with phase := .idle, pos := 0, lastEnd := .slip } := by
      rw [hq]; exact s.axis_zeroed a m _
    have ht : t = q.makePending .lensFault := by
      rw [hq]; exact (s.closeOnMove_eq a m).trans (if_pos slips)
    have keeps {b : Axis} (hb : b ≠ a) (h : (t.axis b).protLock = false ∨ (s.axis b).locked = true) :
        q.LockKeeps (t.axis b).protLock b := by
      rcases h with h | h
      · exact .inl h
      · exact .inr (.inl (by rw [other hb]; exact h))
    rw [ht] at keeps ⊢
    refine ⟨fun within => absurd slips (by omega), fun b hb h => ?_, fun h => ?_⟩
    · rw [State.axis_makePending_of_lockKeeps (keeps hb h), other hb]
    · rw [State.place_makePending_of_lockKeeps fun b => ?_]
      · rw [hq]; exact place _
      · by_cases hb : b = a
        · subst hb
          exact .inr (.inr (by rw [own]; rfl))
        · exact keeps hb (h b hb)
  · have ht : t = (s.zeroed a m (.stopped .limit)).raise (.stopped a) :=
      (s.closeOnMove_eq a m).trans (if_neg slips)
    have other {b : Axis} (hb : b ≠ a) : t.axis b = s.axis b := by rw [ht]; exact s.axis_zeroed_ne a m _ hb
    have told' : t.place = told := by rw [ht]; exact place _
    exact ⟨fun _ => ⟨told', fun b hb => other hb⟩, fun b hb _ => by rw [other hb], fun _ => told'⟩

/-- What a closure on a moving axis leaves of that axis, its events and the focus state (R77, R98). -/
theorem State.closeOnMove_own (s : State) (a : Axis) (m : MoveRec) :
    let t := s.closeOnMove a m
    ∃ lock x, t.axis a = { s.axis a with phase := .idle, pos := 0, lastEnd := x, protLock := lock }
    ∧ ((s.axis a).cal.slipTolerance < (s.axis a).pos → x = .slip ∧ t.sender.has (.slip a) = true
        ∧ t.prot.pending.get .lensFault = true)
    ∧ ((s.axis a).pos ≤ (s.axis a).cal.slipTolerance → x = .stopped .limit
        ∧ t.sender = s.sender.raise (.stopped a) ∧ t.prot = s.prot)
    ∧ (a = Axis.f → t.focus.base = 0 ∧ t.focus.applied = 0 ∧ t.focus.record = none) := by
  intro t
  by_cases slips : (s.axis a).cal.slipTolerance < (s.axis a).pos
  · obtain ⟨q, hq⟩ : ∃ q, q = (s.zeroed a m .slip).raise (.slip a) := ⟨_, rfl⟩
    have own : q.axis a = { s.axis a with phase := .idle, pos := 0, lastEnd := .slip } := by
      rw [hq]; exact s.axis_zeroed a m _
    have ht : t = q.makePending .lensFault := by
      rw [hq]; exact (s.closeOnMove_eq a m).trans (if_pos slips)
    have event : q.sender.has (.slip a) = true := by rw [hq]; exact Sender.has_raise _ _
    rw [ht]
    refine ⟨((q.makePending .lensFault).axis a).protLock, .slip, ?_,
      fun _ => ⟨rfl, (q.ripple_makePending .lensFault).sender.has event, State.makePending_get _ _⟩,
      fun within => absurd slips (by omega), fun isF => ?_⟩
    · rw [State.axis_makePending_of_lockKeeps (.inr (.inr (by rw [own]; rfl))), own]
    · subst isF
      rw [State.focus_makePending_of_cleared (by rw [hq]; rfl), hq]
      exact s.zeroed_focus m .slip
  · have ht : t = (s.zeroed a m (.stopped .limit)).raise (.stopped a) :=
      (s.closeOnMove_eq a m).trans (if_neg slips)
    rw [ht]
    refine ⟨(s.axis a).protLock, .stopped .limit, s.axis_zeroed a m _, fun h => absurd h slips, fun _ => ⟨rfl, ?_, ?_⟩,
      fun isF => ?_⟩
    · exact congrArg (·.raise (.stopped a)) (s.zeroed_sender a m _)
    · exact (s.near_zeroed a m _).prot
    · subst isF; exact s.zeroed_focus m _

/-- BACKOFF with its driver fault not asserted (R182). -/
theorem State.beginHomingLeg_eq {s : State} {a : Axis} (h : (s.pins.get a).driverFault = false) (p : HomingPhase) :
    s.beginHomingLeg a p = s.setAxis a { s.axis a with phase := .homing (s.homingLeg a p), dirOut := p.dir } := by
  unfold State.beginHomingLeg State.checkDriver
  rw [if_neg (by simp [h])]

/-- A homing leg that begins with the driver fault input asserted (R79, R183). -/
theorem State.beginHomingLeg_faulted {s : State} {a : Axis} (h : (s.pins.get a).driverFault = true) (p : HomingPhase) :
    s.FaultedAtLeg (s.beginHomingLeg a p) a ∧ (s.beginHomingLeg a p).sender.has (.homeFailed a) = true := by
  unfold State.beginHomingLeg State.checkDriver
  rw [if_pos (by exact h)]
  obtain ⟨faulted, failed⟩ := State.enterFault_faultedAtLeg
    (s.setAxis a { s.axis a with phase := .homing (s.homingLeg a p), dirOut := p.dir }) a
    (by rw [State.axis_setAxis_same]; exact fun e => nomatch e)
  exact ⟨faulted.of_setAxis rfl, failed (by rw [State.axis_setAxis_same]; rfl)⟩

/-- Settles O56: a closure on a move by what it leaves of the axis, of the others and of the tracker; a homing sequence
by its phase. -/
theorem limitSwitchStopsOrHomes : Obligations.LimitSwitchStopsOrHomes := by
  intro s a released
  simp only
  have pins : ((s.setPin a { s.pins.get a with switchClosed := true }).pins.get a).driverFault
      = (s.pins.get a).driverFault := by simp
  rw [exec_limitSwitchClose released, exec_limitSwitchOpen released]
  generalize hc : s.setPin a { s.pins.get a with switchClosed := true } = closed at pins ⊢
  generalize ho : s.setPin a { s.pins.get a with switchClosed := false } = opened
  have ca : closed.axis a = s.axis a := by rw [← hc]; rfl
  have oa : opened.axis a = s.axis a := by rw [← ho]; rfl
  refine ⟨fun m hm moves => ?_, fun run hp going => ⟨fun seek quiet => ?_, fun seek fault => ?_, fun backoff => ?_,
    fun backoff => ?_, fun seek => ?_⟩, fun run r left hp halted => ⟨?_, ?_⟩, fun rests => ⟨?_, ?_⟩, fun other => ?_⟩
  · rw [State.switchCloses_of_record (by rw [ca]; exact hm) (by rw [ca]; exact moves)]
    have others := closed.closeOnMove_others a m
    obtain ⟨lock, x, axis, slip, stop, focus⟩ := closed.closeOnMove_own a m
    have r := closed.ripple_closeOnMove a m
    rw [ca] at axis slip stop
    refine ⟨_, rfl, r.pins, by rw [axis], by rw [axis], by rw [axis], by rw [axis]; exact slip, ?_, focus, ?_, ?_⟩
    · intro within
      obtain ⟨hx, sender, prot⟩ := stop within
      exact ⟨by rw [axis, hx], by rw [sender, ← hc]; rfl, by rw [prot, ← hc]; rfl⟩
    · rw [← hc] at others ⊢
      exact others
    · rw [r.startup, r.link, r.intake, r.table, r.gen, r.mem, r.sensors, r.hold, r.pending, ← hc]
      exact ⟨rfl, rfl, rfl, rfl, rfl, rfl, rfl, rfl, rfl⟩
  · rw [State.switchCloses, ca, hp]
    simp only [going, seek]
    rw [State.beginHomingLeg_eq (pins.trans quiet), State.homingLeg, ca, ← hc]
    rfl
  · rw [State.switchCloses, ca, hp]
    simp only [going, seek]
    obtain ⟨faulted, failed⟩ := State.beginHomingLeg_faulted (pins.trans fault) .backoff
    exact ⟨_, rfl, faulted, failed⟩
  · rw [State.switchCloses, ca, hp]
    simp only [going, backoff]
  · rw [State.switchOpens, oa, hp]
    simp only [going, backoff]
    rw [State.homed, oa]
  · rw [State.switchOpens, oa, hp]
    simp only [going, seek]
  · rw [State.switchCloses, ca, hp]
    simp only [halted]
  · rw [State.switchOpens, oa, hp]
    simp only [halted]
  · rw [State.switchCloses, ca]
    rcases rests with hp | hp | hp | ⟨m, hp⟩ <;> rw [hp]
  · rw [State.switchOpens, oa]
    rcases rests with hp | hp | hp | ⟨m, hp⟩ <;> rw [hp]
  · rw [State.switchOpens, oa]
    split <;> rename_i hp
    · exact absurd hp (other _)
    all_goals rfl

end Sys2Proof.Machine

namespace Sys2Proof.Machine

/-! ### Legs and moves as updates of the axis (R64, R65, R67, R79) -/

/-- A leg begins with the driver fault input not asserted. -/
theorem State.beginLeg_eq {s : State} {a : Axis} {m : MoveRec} {n : Nat} {leg : Leg} (hleg : m.legs[n - 1]? = some leg)
    (quiet : (s.pins.get a).driverFault = false) :
    s.beginLeg a m n = s.setAxis a { s.axis a with
      phase := .moving { m with current := n, k := 0, lastIndex := 0, timer := ⟨0, 1⟩ }, dirOut := leg.dir } := by
  simp [State.beginLeg, hleg, State.checkDriver, quiet]

/-- A move to where the axis stands completes (R67). -/
theorem State.beginMove_at {s : State} {a : Axis} {target : Nat} (h : (s.axis a).pos = target) (o : Owner) (n : Nat) :
    s.beginMove a target o n = s.completeMove a o := by
  unfold State.beginMove
  simp only [h, legsOf_self]

/-- The record of a move of owner o with profile number n, as it begins (R64). -/
def State.freshRecord (s : State) (target : Nat) (o : Owner) (n : Nat) (legs : List Leg) : MoveRec :=
  { target := target, owner := o, profileNo := n, profile := s.lens.profiles.getD n ⟨300, 300, 0⟩, legs := legs,
    current := 1, k := 0, lastIndex := 0, timer := ⟨0, 1⟩ }

/-- A move to elsewhere begins its first leg. -/
theorem State.beginMove_away {s : State} {a : Axis} {target : Nat} (h : (s.axis a).pos ≠ target) (o : Owner) (n : Nat) :
    ∃ leg legs, legsOf (s.axis a).pos target (s.axis a).cal.backlash (s.axis a).cal.max (s.approach a) = leg :: legs
      ∧ s.beginMove a target o n = s.beginLeg a (s.freshRecord target o n (leg :: legs)) 1 := by
  obtain ⟨leg, legs, e⟩ := legsOf_eq_cons (s.axis a).cal.backlash (s.axis a).cal.max (s.approach a) (Ne.symm h)
  refine ⟨leg, legs, e, ?_⟩
  unfold State.beginMove
  simp only [e]
  rfl

/-- It begins with the driver fault input not asserted. -/
theorem State.beginMove_quiet {s : State} {a : Axis} {target : Nat} (h : (s.axis a).pos ≠ target)
    (quiet : (s.pins.get a).driverFault = false) (o : Owner) (n : Nat) :
    ∃ leg legs, legsOf (s.axis a).pos target (s.axis a).cal.backlash (s.axis a).cal.max (s.approach a) = leg :: legs
      ∧ s.beginMove a target o n = s.setAxis a { s.axis a with
          dirOut := leg.dir, phase := .moving (s.freshRecord target o n (leg :: legs)) } := by
  obtain ⟨leg, legs, e, begun⟩ := State.beginMove_away h o n
  exact ⟨leg, legs, e, begun.trans (State.beginLeg_eq rfl quiet)⟩

/-- Or with it asserted. -/
theorem State.beginMove_faulted {s : State} {a : Axis} {target : Nat} (h : (s.axis a).pos ≠ target)
    (fault : (s.pins.get a).driverFault = true) (o : Owner) (n : Nat) :
    s.FaultedAtLeg (s.beginMove a target o n) a := by
  obtain ⟨leg, legs, -, begun⟩ := State.beginMove_away h o n
  rw [begun]
  exact s.beginLeg_faulted a _ 1 fault

/-! ### Payloads that name an axis -/

theorem axisOf_eq_some {w : Word} {a : Axis} : axisOf w = some a ↔ w = axisWord a := by
  constructor
  · unfold axisOf
    repeat' split
    all_goals
      intro h
      cases h
      try assumption
  · rintro rfl
    exact axisOf_axisWord a

@[simp] theorem axisField_axisWord (a : Axis) : axisField [axisWord a] = some a := axisOf_axisWord a

theorem axisField_of_other {p : List Word} (h : ∀ a, p ≠ [axisWord a]) : axisField p = none := by
  rw [Option.eq_none_iff_forall_ne_some]
  intro a ha
  unfold axisField oneField at ha
  split at ha
  · exact h a (by rw [axisOf_eq_some.1 ha])
  · cases ha

/-! ### STOP, LOCK, UNLOCK, HOLD and RESUME (R71 to R75) -/

theorem AxisUnit.locked_eq_true {u : AxisUnit} : u.locked = true ↔ u.hostLock = true ∨ u.protLock = true := by
  simp [AxisUnit.locked]

theorem AxisUnit.locked_eq_false {u : AxisUnit} : u.locked = false ↔ u.hostLock = false ∧ u.protLock = false := by
  simp [AxisUnit.locked]

section AxisMessages

variable {s : State} {a : Axis}

/-- A stop that leaves the record held (R73). -/
theorem State.decelerate_holding (m : MoveRec) : s.decelerate a .holding m =
    s.setPhase a (if m.lastIndex = 0 then .holding m else .stopping m .holding m.lastIndex) := by
  unfold State.decelerate
  split <;> rfl

theorem holdBody_of_moving (hs : s.startup.part ≠ .starting) {m : MoveRec} (hp : (s.axis a).phase = .moving m) :
    holdBody [axisWord a] s = (s.decelerate a .holding m, .done) := by
  rw [holdBody, readyThen_of_some hs (axisField_axisWord a)]
  simp only [hp]

theorem holdBody_of_still (hs : s.startup.part ≠ .starting) (hp : ∀ m, (s.axis a).phase ≠ .moving m) :
    holdBody [axisWord a] s = (s, .refused .badState) := by
  rw [holdBody, readyThen_of_some hs (axisField_axisWord a)]
  split <;> rename_i e
  · exact absurd e (hp _)
  all_goals rfl

theorem resumeBody_of_locked (hs : s.startup.part ≠ .starting) (hl : (s.axis a).locked = true) :
    resumeBody [axisWord a] s = (s, .refused .locked) := by
  rw [resumeBody, readyThen_of_some hs (axisField_axisWord a), if_pos hl]

theorem resumeBody_of_moving (hs : s.startup.part ≠ .starting) (free : (s.axis a).locked = false)
    (hp : ∀ m, (s.axis a).phase ≠ .holding m) : resumeBody [axisWord a] s = (s, .refused .badState) := by
  rw [resumeBody, readyThen_of_some hs (axisField_axisWord a), if_neg (by simp [free])]
  split <;> rename_i e
  · exact absurd e (hp _)
  all_goals rfl

theorem resumeBody_of_holding (hs : s.startup.part ≠ .starting) (free : (s.axis a).locked = false) {m : MoveRec}
    (hp : (s.axis a).phase = .holding m) : resumeBody [axisWord a] s = (s.resumeMove a m, .done) := by
  rw [resumeBody, readyThen_of_some hs (axisField_axisWord a), if_neg (by simp [free])]
  simp only [hp]

/-- Short of its leg's end, a retained record takes the rest of the leg as a leg of its own (R74). -/
theorem State.resumeMove_short {m : MoveRec} {leg : Leg} (hleg : m.leg = some leg)
    (short : leg.rest (s.axis a).pos ≠ 0) : s.resumeMove a m = s.beginLeg a m m.current := by
  simp [State.resumeMove, hleg, short]

/-- At the leg's end it goes on as after the leg's last step (R74). -/
theorem State.resumeMove_atEnd {m : MoveRec} {leg : Leg} (hleg : m.leg = some leg)
    (atEnd : leg.rest (s.axis a).pos = 0) : s.resumeMove a m = s.legOver a m := by
  simp [State.resumeMove, hleg, atEnd]

theorem State.legOver_last {m : MoveRec} (h : m.current = m.legs.length) :
    s.legOver a m = s.completeMove a m.owner := by
  simp [State.legOver, h]

theorem State.legOver_next {m : MoveRec} (h : m.current < m.legs.length) :
    s.legOver a m = s.beginLeg a m (m.current + 1) := by
  simp [State.legOver, h]

end AxisMessages

/-- Settles O51: the tables of R72 to R75 phase by phase, and RESUME by where the record stands in its leg. -/
theorem stopLockHoldAndResume : Obligations.StopLockHoldAndResume := by
  intro s e p hs
  refine ⟨fun a hp => ?_, fun c kind row other executes => ?_⟩
  · subst hp
    have field := axisField_axisWord a
    refine ⟨fun executes => ?_, fun executes => ?_, fun executes => ?_, fun executes => ⟨fun m hp => ?_, fun still => ?_⟩,
      fun executes => ⟨fun locked => ?_, fun host prot other => ?_, fun m leg host prot hp hleg => ?_⟩⟩
    · refine (exec_eq_ended rfl executes (readyThen_of_some hs field)).trans ?_
      rw [State.stopAxis]
      cases (s.axis a).phase <;> rfl
    · refine (exec_eq_ended rfl executes (readyThen_of_some hs field)).trans ?_
      rw [State.setHostLock]
      simp only [Bool.true_and]
      by_cases hl : (s.axis a).locked = true
      · rw [if_pos (AxisUnit.locked_eq_true.1 hl), if_neg (by simp [hl])]
      · rw [if_neg fun h => hl (AxisUnit.locked_eq_true.2 h), if_pos (by simpa using hl), State.lockEffect,
          State.axis_setAxis_same]
        generalize s.setAxis a { s.axis a with hostLock := true } = t
        cases (s.axis a).phase with
        | stopping m intent left => cases intent <;> rfl
        | _ => rfl
    · refine (exec_eq_ended rfl executes (readyThen_of_some hs field)).trans ?_
      rfl
    · rw [exec_eq_ended rfl executes (holdBody_of_moving hs hp), State.decelerate_holding]
    · exact exec_eq_ended rfl executes (holdBody_of_still hs still)
    · exact exec_eq_ended rfl executes (resumeBody_of_locked hs (AxisUnit.locked_eq_true.2 locked))
    · exact exec_eq_ended rfl executes (resumeBody_of_moving hs (AxisUnit.locked_eq_false.2 ⟨host, prot⟩) other)
    · have resumed := exec_eq_ended (c := .resume) rfl executes
        (resumeBody_of_holding hs (AxisUnit.locked_eq_false.2 ⟨host, prot⟩) hp)
      refine ⟨fun short quiet => ?_, fun begins fault => ⟨_, resumed, ?_⟩, fun atEnd last => ?_,
        fun next atEnd more hnext quiet => ?_⟩
      · rw [resumed, State.resumeMove_short hleg short, State.beginLeg_eq hleg quiet]
      · by_cases short : leg.rest (s.axis a).pos = 0
        · rw [State.resumeMove_atEnd hleg short, State.legOver_next (begins.resolve_left (absurd short ·))]
          exact s.beginLeg_faulted a m _ fault
        · rw [State.resumeMove_short hleg short]
          exact s.beginLeg_faulted a m _ fault
      · rw [resumed, State.resumeMove_atEnd hleg atEnd, State.legOver_last last]
      · rw [resumed, State.resumeMove_atEnd hleg atEnd, State.legOver_next more, State.beginLeg_eq hnext quiet]
  · have none := axisField_of_other other
    simp only [List.mem_cons, Prod.mk.injEq, List.not_mem_nil, or_false] at row
    rcases row with ⟨rfl, rfl⟩ | ⟨rfl, rfl⟩ | ⟨rfl, rfl⟩ | ⟨rfl, rfl⟩ | ⟨rfl, rfl⟩ | ⟨rfl, rfl⟩ <;>
      exact exec_eq_ended rfl executes (readyThen_of_none hs none)

/-! ### AXIS_STEP (R62, R63, R65, R67, R71, R182) -/

theorem exec_axisStep {s : State} (h : s.hold.held = false) (a : Axis) : exec (.axisStep a) s = .next (s.stepAxis a) :=
  whenReleased_eq h (·.stepAxis a)

/-- A leg with steps left is not at its end: the next one goes on along it. -/
theorem Leg.step_of_rest {leg : Leg} {pos : Nat} (h : leg.rest pos ≠ 0) : leg.step pos = match leg.dir with
    | .raise => pos + 1
    | .lower => pos - 1 := by
  have going := h
  unfold Leg.rest at going
  unfold Leg.step
  cases hd : leg.dir <;> simp only [hd] at going ⊢ <;> rw [if_pos (by omega)]

section Steps

variable {s : State} {a : Axis} {m : MoveRec} {leg : Leg}

/-- One step of a MOVING axis, before what the leg's end may bring (R62, R63). -/
def State.movingStep (s : State) (a : Axis) (m : MoveRec) (leg : Leg) : State :=
  s.setAxis a { s.axis a with
    phase := .moving (m.stepped (min m.k (min (leg.rest (s.axis a).pos - 1) m.profile.ramp)))
    pos := leg.step (s.axis a).pos, pulses := (s.axis a).pulses + 1 }

theorem State.stepAxis_moving (hp : (s.axis a).phase = .moving m) (hleg : m.leg = some leg)
    (going : leg.rest (s.axis a).pos ≠ 0) : s.stepAxis a =
      if leg.rest (s.axis a).pos = 1 then
        (s.movingStep a m leg).legOver a (m.stepped (min m.k (min (leg.rest (s.axis a).pos - 1) m.profile.ramp)))
      else s.movingStep a m leg := by
  rw [State.stepAxis, hp]
  simp only [hleg]
  rw [State.stepMoving, if_neg going]
  rfl

/-- One step of a STOPPING axis, before what its stand may bring (R71). -/
def State.stoppingStep (s : State) (a : Axis) (m : MoveRec) (intent : StopIntent) (left : Nat) (leg : Leg) : State :=
  s.setAxis a { s.axis a with
    phase := .stopping (m.stepped (left - 1)) intent (left - 1)
    pos := leg.step (s.axis a).pos, pulses := (s.axis a).pulses + 1 }

theorem State.stepAxis_stopping {intent : StopIntent} {left : Nat} (hp : (s.axis a).phase = .stopping m intent left)
    (hleg : m.leg = some leg) (some : 1 ≤ left) : s.stepAxis a =
      if left = 1 then (s.stoppingStep a m intent left leg).stand a intent (m.stepped (left - 1))
      else s.stoppingStep a m intent left leg := by
  rw [State.stepAxis, hp]
  simp only [hleg]
  rw [State.stepStopping, if_neg (by omega)]
  rfl

theorem State.stepAxis_still (h : (s.axis a).phase = .idle ∨ (s.axis a).phase = .unhomed ∨ (s.axis a).phase = .fault
    ∨ ∃ m, (s.axis a).phase = .holding m) : s.stepAxis a = s := by
  rw [State.stepAxis]
  rcases h with hp | hp | hp | ⟨m, hp⟩ <;> rw [hp]

end Steps

/-- Settles O55: each stepping state's step, and at the last one the leg's end or the stand. -/
theorem axisStepFollowsTheRateLaw : Obligations.AxisStepFollowsTheRateLaw := by
  intro s a released u rate moved
  have moved_eq : ∀ leg : Leg, leg.rest u.pos ≠ 0 → moved leg = leg.step u.pos := fun leg h =>
    (Leg.step_of_rest h).symm
  have pulsed {r : State} {w : AxisUnit} (h : (s.setAxis a w).FaultedAtLeg r a)
      (hw : w = { u with phase := w.phase, pos := w.pos, pulses := u.pulses + 1 }) :
      (s.setAxis a { u with pulses := u.pulses + 1 }).FaultedAtLeg r a := by
    rw [← State.setAxis_setAxis s a { u with pulses := u.pulses + 1 }] at h
    refine h.of_setAxis ?_
    rw [State.axis_setAxis_same, hw]
  rw [exec_axisStep released]
  refine ⟨fun m leg hp hleg going => ?_, fun m leg intent left hp hleg going => ?_, fun run hp going short => ?_,
    fun run r left hp halted => ?_, fun still => ?_⟩
  · intro i m1 t
    have ht : t = s.movingStep a m leg := by simp only [t, moved_eq leg going]; rfl
    have stepped := State.stepAxis_moving hp hleg going
    refine ⟨fun more => ?_, fun last final => ?_, fun second last more hsecond quiet => ?_,
      fun last more fault => ⟨_, rfl, ?_⟩⟩
    · rw [stepped, if_neg more, ht]
    · rw [stepped, if_pos last, State.legOver_last (by exact final), ht]
      rfl
    · rw [stepped, if_pos last, State.legOver_next (by exact more)]
      have begun := State.beginLeg_eq (s := s.movingStep a m leg) (m := m1) (n := m.current + 1) hsecond quiet
      refine (congrArg Host.Outcome.next begun).trans ?_
      rw [State.movingStep, State.axis_setAxis_same, State.setAxis_setAxis, moved_eq leg going]
    · rw [stepped, if_pos last, State.legOver_next (by exact more)]
      have faulted := (s.movingStep a m leg).beginLeg_faulted a m1 (m.current + 1) fault
      exact pulsed faulted rfl
  · intro m1 t
    have ht : t = s.stoppingStep a m intent left leg := by simp only [t, moved_eq leg going]; rfl
    have stepped (last : left = 1) :
        s.stepAxis a = (s.stoppingStep a m intent left leg).stand a intent (m.stepped (left - 1)) :=
      (State.stepAxis_stopping hp hleg (by omega)).trans (if_pos last)
    have retargeted {target : Nat} (retarget : intent = .retarget target) (free : u.locked = false) :
        (s.stoppingStep a m intent left leg).stand a intent (m.stepped (left - 1))
          = (s.stoppingStep a m intent left leg).beginMove a target .placement 1 := by
      subst retarget
      have unlocked : ((s.stoppingStep a m (.retarget target) left leg).axis a).locked = false := by
        rw [State.stoppingStep, State.axis_setAxis_same]
        exact free
      rw [State.stand]
      simp [unlocked]
    refine ⟨fun more => ?_, fun r last idle => ?_, fun last holding => ?_, fun target last retarget free => ?_,
      fun target last retarget free away fault => ⟨_, rfl, ?_⟩⟩
    · rw [State.stepAxis_stopping hp hleg (by omega), if_neg (by omega), ht]
    · rw [stepped last, ht, idle]
      rfl
    · rw [stepped last, ht, holding]
      rfl
    · rw [stepped last, retargeted retarget free, ht]
    · rw [stepped last, retargeted retarget free]
      have elsewhere : ((s.stoppingStep a m intent left leg).axis a).pos ≠ target := by
        rw [State.stoppingStep, State.axis_setAxis_same, ← moved_eq leg going]
        exact away
      exact pulsed (State.beginMove_faulted elsewhere fault .placement 1) rfl
  · rw [State.stepAxis, hp]
    simp only [State.stepHoming, going]
    rw [if_pos short]
    rfl
  · rw [State.stepAxis, hp]
    simp only [State.stepHoming, halted]
    refine ⟨fun more => ?_, fun last => ?_⟩
    · rw [if_neg (by omega)]
    · rw [if_pos (by omega)]
  · rw [State.stepAxis_still still]

end Sys2Proof.Machine

namespace Sys2Proof.Machine

/-! ### MOVE and RETURN (R64 to R70, R93, R98) -/

/-- The checks of MOVE and RETURN in their order (R66, R70). -/
theorem AxisUnit.refusesMove_eq (u : AxisUnit) : u.refusesMove =
    if u.phase = .unhomed ∨ u.phase = .fault ∨ u.phase.isHoming = true then some .notHomed
    else if u.hostLock = true ∨ u.protLock = true then some .locked
    else if u.phase = .idle then none else some .busy := by
  unfold AxisUnit.refusesMove AxisUnit.homed AxisUnit.locked
  cases u.phase <;> simp [Phase.homed, Phase.isHoming, Phase.inMove, Phase.record]

theorem moveFields_eq_some {a : Axis} {target n : Word} (h : n.toNat ≤ 3) :
    moveFields [axisWord a, target, n] = some ⟨a, target.toNat, n.toNat⟩ := by
  simp [moveFields, upTo, h]

theorem moveFields_of_profile {w target n : Word} (h : 3 < n.toNat) : moveFields [w, target, n] = none := by
  simp [moveFields, upTo, Nat.not_le.2 h]

theorem moveFields_of_other {p : List Word} (h : ∀ b x y, p ≠ [axisWord b, x, y]) : moveFields p = none := by
  rw [Option.eq_none_iff_forall_ne_some]
  intro f hf
  unfold moveFields at hf
  split at hf
  · simp only [Option.bind_eq_bind, Option.bind_eq_some_iff] at hf
    obtain ⟨b, hb, _⟩ := hf
    exact h b _ _ (by rw [axisOf_eq_some.1 hb])
  · cases hf

/-- An accepted move handed on, with the ring it leaves the axis (R68 to R70). -/
def State.hosted (s : State) (a : Axis) (target : Nat) (ring : List Nat) : State :=
  (s.handOver a target).setAxis a { s.axis a with ring := ring }

theorem State.handOver_eq (s : State) (a : Axis) (target : Nat) : s.handOver a target = { s with
    place := if a = .f then s.place else s.place.cancelled
    focus := if a = .f then { s.focus with base := (target : Int) - s.focus.applied } else s.focus } := by
  cases a <;> rfl

/-- What a fault leaves does not show what the tracker and focus upkeep were told just before. -/
theorem State.FaultedAtLeg.of_near {s q t : State} {a : Axis} (h : q.FaultedAtLeg t a) (near : s.Near q)
    (axis : ∀ b, q.axis b = s.axis b) (place : a ≠ .f → q.place.cancelled = s.place.cancelled)
    (focus : a = .f → q.focus.cleared = s.focus.cleared) : s.FaultedAtLeg t a where
  axis := by rw [← axis a]; exact h.axis
  event := h.event
  raised := h.raised
  placement notF := (h.placement notF).trans (place notF)
  focus isF := (h.focus isF).trans (focus isF)
  others b hb := by rw [← axis b]; exact h.others b hb
  again hp := by
    obtain ⟨prot, light, fans, picture, others⟩ := h.again (by rw [near.prot]; exact hp)
    exact ⟨prot.trans near.prot, light.trans near.light, fans.trans near.fans, picture.trans near.picture,
      fun b hb => (others b hb).trans (axis b)⟩
  profiles := h.profiles.trans near.profiles
  startup := h.startup.trans near.startup
  link := h.link.trans near.link
  mem := h.mem.trans near.mem
  intake := h.intake.trans near.intake
  table := h.table.trans near.table
  gen := h.gen.trans near.gen
  sensors := h.sensors.trans near.sensors
  pins := h.pins.trans near.pins
  hold := h.hold.trans near.hold
  pending := h.pending.trans near.pending

section Hosted

variable {s : State} {a : Axis} {target : Nat} (ring : List Nat) (n : Nat)

/-- Standing at the target, the move is done at once (R67). -/
theorem State.hosted_at (h : (s.axis a).pos = target) : (s.hosted a target ring).beginMove a target .commanded n =
    State.raise ((s.handOver a target).setAxis a
      { s.axis a with ring := ring, phase := .idle, lastEnd := .completed }) (.moveDone a) := by
  rw [State.hosted, State.beginMove_at (by rw [State.axis_setAxis_same]; exact h), State.completeMove,
    State.axis_setAxis_same, State.setAxis_setAxis]
  rfl

/-- Else it begins with the legs of R64. -/
theorem State.hosted_quiet (h : (s.axis a).pos ≠ target) (quiet : (s.pins.get a).driverFault = false) :
    let legs := legsOf (s.axis a).pos target (s.axis a).cal.backlash (s.axis a).cal.max (s.approach a)
    (s.hosted a target ring).beginMove a target .commanded n = (s.handOver a target).setAxis a { s.axis a with
      ring := ring
      dirOut := (legs.head?.map (·.dir)).getD (s.axis a).dirOut
      phase := .moving (s.freshRecord target .commanded n legs) } := by
  intro legs
  have own : (s.hosted a target ring).axis a = { s.axis a with ring := ring } := State.axis_setAxis_same _ _ _
  have approach : (s.hosted a target ring).approach a = s.approach a := by cases a <;> rfl
  have pins : (s.hosted a target ring).pins = s.pins := by cases a <;> rfl
  have profiles : (s.hosted a target ring).lens.profiles = s.lens.profiles := by cases a <;> rfl
  obtain ⟨leg, rest, e, begun⟩ := State.beginMove_quiet (s := s.hosted a target ring) (a := a) (target := target)
    (by rw [own]; exact h) (by rw [pins]; exact quiet) .commanded n
  rw [own, approach] at e
  have hlegs : legs = leg :: rest := e
  rw [begun, own, hlegs, State.freshRecord, profiles, State.hosted, State.setAxis_setAxis]
  rfl

/-- Or finds the driver fault (R79). -/
theorem State.hosted_faulted (h : (s.axis a).pos ≠ target) (fault : (s.pins.get a).driverFault = true) :
    s.FaultedAtLeg ((s.hosted a target ring).beginMove a target .commanded n) a := by
  have own : (s.hosted a target ring).axis a = { s.axis a with ring := ring } := State.axis_setAxis_same _ _ _
  have pins : (s.hosted a target ring).pins = s.pins := by cases a <;> rfl
  have faulted := State.beginMove_faulted (s := s.hosted a target ring) (a := a) (target := target)
    (by rw [own]; exact h) (by rw [pins]; exact fault) .commanded n
  refine (State.FaultedAtLeg.of_setAxis faulted (by rw [State.axis_handOver])).of_near (s.near_handOver a target)
    (fun b => s.axis_handOver a b target) (fun _ => ?_) fun isF => ?_
  · cases a <;> rfl
  · subst isF; rfl

end Hosted

section MoveBodies

variable {s : State} {a : Axis} (hs : s.startup.part ≠ .starting)

include hs

theorem moveBody_of_refused {target n : Word} {r : Reason} (hn : n.toNat ≤ 3) (hr : (s.axis a).refusesMove = some r) :
    moveBody [axisWord a, target, n] s = (s, .refused r) := by
  rw [moveBody, readyThen_of_some hs (moveFields_eq_some hn)]
  simp only [hr]

/-- A MOVE taken: the target clamped to the travel, the position left pushed unless it is the target (R66, R68). -/
theorem moveBody_of_taken {target n : Word} (hn : n.toNat ≤ 3) (hr : (s.axis a).refusesMove = none) :
    moveBody [axisWord a, target, n] s =
      ((s.hosted a (min target.toNat (s.axis a).cal.max)
          (if min target.toNat (s.axis a).cal.max = (s.axis a).pos then (s.axis a).ring
            else ((s.axis a).pos :: (s.axis a).ring).take 8)).beginMove a (min target.toNat (s.axis a).cal.max)
          .commanded n.toNat,
        if (s.axis a).cal.max < target.toNat then .clamped (BitVec.ofNat 16 (s.axis a).cal.max) else .done) := by
  have small := target.isLt
  rw [moveBody, readyThen_of_some hs (moveFields_eq_some hn)]
  simp only [hr, AxisUnit.push_eq]
  refine Prod.ext rfl ?_
  simp only
  split
  · rename_i beyond
    rw [Nat.min_eq_right beyond.le, natWord, if_pos (by omega)]
  · rfl

theorem returnBody_of_refused {r : Reason} (hr : (s.axis a).refusesMove = some r) :
    returnBody [axisWord a] s = (s, .refused r) := by
  rw [returnBody, readyThen_of_some hs (axisField_axisWord a)]
  simp only [hr]

theorem returnBody_of_empty (hr : (s.axis a).refusesMove = none) (empty : (s.axis a).ring = []) :
    returnBody [axisWord a] s = (s, .refused .nothing) := by
  rw [returnBody, readyThen_of_some hs (axisField_axisWord a)]
  simp only [hr, empty]

/-- A RETURN taken pops the newest entry and pushes nothing (R70). -/
theorem returnBody_of_taken {target : Nat} {ring : List Nat} (hr : (s.axis a).refusesMove = none)
    (entry : (s.axis a).ring = target :: ring) :
    returnBody [axisWord a] s = ((s.hosted a target ring).beginMove a target .commanded 1, .done) := by
  rw [returnBody, readyThen_of_some hs (axisField_axisWord a)]
  simp only [hr, entry]
  rfl

end MoveBodies

/-- Settles O53: the checks, then the move begun, done or faulted by where the axis stands and its driver. -/
theorem moveAndReturnBeginMoves : Obligations.MoveAndReturnBeginMoves := by
  intro s e a hs u refusal handed begun done
  have checks : refusal = u.refusesMove := u.refusesMove_eq.symm
  have hand (target : Nat) : s.handOver a target = handed target := s.handOver_eq a target
  have begins {target n : Nat} {ring : List Nat} (away : u.pos ≠ target) (quiet : (s.pins.get a).driverFault = false) :
      (s.hosted a target ring).beginMove a target .commanded n = begun target n ring := by
    rw [State.hosted_quiet ring n away quiet, hand]
    rfl
  have ends {target n : Nat} {ring : List Nat} (there : u.pos = target) :
      (s.hosted a target ring).beginMove a target .commanded n = done target ring := by
    rw [State.hosted_at ring n there, hand]
  rw [checks]
  refine ⟨fun target n executes => ?_, fun executes => ⟨fun r hr => ?_, fun hr empty => ?_, fun target ring hr entry => ?_⟩,
    fun p other executes => ?_, fun from_ to_ backlash top way apart within => ?_⟩
  · intro to_ outcome
    refine ⟨fun bad => ?_, fun hn r hr => ?_, fun hn hr away quiet => ?_, fun hn hr away fault => ?_,
      fun hn hr there => ?_⟩
    · exact exec_eq_ended rfl executes (readyThen_of_none hs (moveFields_of_profile bad))
    · exact exec_eq_ended rfl executes (moveBody_of_refused hs hn hr)
    · rw [exec_eq_ended (c := .move) rfl executes (moveBody_of_taken hs hn hr), if_neg (Ne.symm away),
        begins away quiet]
    · exact ⟨_, exec_eq_ended rfl executes (moveBody_of_taken hs hn hr), State.hosted_faulted _ _ away fault⟩
    · rw [exec_eq_ended (c := .move) rfl executes (moveBody_of_taken hs hn hr), if_pos there.symm, ends there]
  · exact exec_eq_ended rfl executes (returnBody_of_refused hs hr)
  · exact exec_eq_ended rfl executes (returnBody_of_empty hs hr empty)
  · have taken := exec_eq_ended (c := .returnMove) rfl executes (returnBody_of_taken hs hr entry)
    refine ⟨fun away quiet => ?_, fun away fault => ⟨_, taken, State.hosted_faulted _ _ away fault⟩, fun there => ?_⟩
    · rw [taken, begins away quiet]
    · rw [taken, ends there]
  · exact exec_eq_ended rfl executes (readyThen_of_none hs (moveFields_of_other other))
  · obtain ⟨stops, two, ends⟩ := legsOf_spec from_ to_ backlash top way within
    obtain ⟨last, dir⟩ := ends apart
    exact ⟨stops, last, two, dir⟩

end Sys2Proof.Machine

namespace Sys2Proof.Machine

/-! ### HOME (R181, R182) -/

theorem homeFields_of_length {p : List Word} (h : p.length ≠ 1) : homeFields p = none := by
  unfold homeFields
  split
  · exact absurd rfl h
  · rfl

theorem homeFields_of_bad {w : Word} (h : w.toNat = 0 ∨ 7 < w.toNat) : homeFields [w] = none := by
  refine if_pos (h.imp (fun zero => BitVec.eq_of_toNat_eq zero) fun above => ?_)
  omega

theorem homeFields_of_good {w : Word} (lo : 1 ≤ w.toNat) (hi : w.toNat ≤ 7) :
    homeFields [w] = some (allAxes.filter fun a => w.getLsbD (axisNumber a)) := by
  refine if_neg ?_
  rintro (rfl | above)
  · simp at lo
  · omega

/-- Some named axis meets a check. -/
theorem any_named (named p : Axis → Bool) :
    (allAxes.filter named).any p = true ↔ ∃ a, named a = true ∧ p a = true := by
  have all : ∀ a : Axis, a ∈ allAxes := fun a => by cases a <;> decide
  simp [all]

/-- The start of a sequence by the level of the limit switch (R182). -/
theorem State.homingStart_eq (s : State) (a : Axis) : s.homingStart a = { s.axis a with
    pos := 0, ring := [], lastEnd := .none
    dirOut := if (s.pins.get a).switchClosed then .raise else .lower
    phase := .homing { phase := if (s.pins.get a).switchClosed then .backoff else .seek
                       bound := if (s.pins.get a).switchClosed then (s.axis a).cal.backlash + 256
                         else (s.axis a).cal.max * 11 / 10
                       profile := s.lens.profiles.getD (s.axis a).cal.homingProfile ⟨300, 300, 0⟩
                       steps := 0, lastIndex := 0, halt := none } } := by
  unfold State.homingStart
  cases (s.pins.get a).switchClosed <;> rfl

/-- The lens controller after the named axes have entered HOMING. -/
def State.homingLens (s : State) (named : Axis → Bool) : Lens :=
  let start := fun a => if named a then s.homingStart a else s.axis a
  ⟨⟨start .v, start .h, start .f⟩, s.lens.profiles⟩

theorem State.homingLens_get (s : State) (named : Axis → Bool) (a : Axis) :
    (s.homingLens named).axes.get a = if named a then s.homingStart a else s.axis a := by
  cases a <;> rfl

/-- The state after the named axes have entered HOMING: on V and H the placement ends (R93), on F the focus state is
cleared (R98). -/
def State.homingEntered (s : State) (named : Axis → Bool) : State :=
  { s with
    lens := s.homingLens named
    place := if named .v = true ∨ named .h = true then s.place.cancelled else s.place
    focus := if named .f = true then s.focus.cleared else s.focus }

theorem State.enterHoming_eq (s : State) (a : Axis) : s.enterHoming a = { s with
    lens := ⟨s.lens.axes.set a (s.homingStart a), s.lens.profiles⟩
    place := if a = .f then s.place else s.place.cancelled
    focus := if a = .f then s.focus.cleared else s.focus } := by
  cases a <;> rfl

/-- The axes enter one by one, each in fields of its own: by which of the three are named. -/
theorem State.foldl_enterHoming (s : State) (named : Axis → Bool) :
    (allAxes.filter named).foldl State.enterHoming s = s.homingEntered named := by
  unfold State.homingEntered State.homingLens
  cases v : named .v <;> cases h : named .h <;> cases f : named .f <;>
    simp only [allAxes, List.filter, v, h, f, List.foldl_nil, List.foldl_cons, State.enterHoming_eq, Bool.false_eq_true,
      or_true, or_false, if_true, if_false, reduceCtorEq] <;> rfl

/-- The check of a named axis's first leg (R79); another axis is passed by. -/
def State.firstLegIf (s : State) (named : Axis → Bool) (a : Axis) : State :=
  if named a then s.firstHomingLeg a else s

theorem State.homeAxes_eq (s : State) (named : Axis → Bool) : s.homeAxes (allAxes.filter named)
    = (((s.homingEntered named).firstLegIf named .v).firstLegIf named .h).firstLegIf named .f := by
  rw [State.homeAxes, State.foldl_enterHoming, List.foldl_filter]
  rfl

theorem State.firstLegIf_pins (s : State) (named : Axis → Bool) (a : Axis) : (s.firstLegIf named a).pins = s.pins := by
  unfold State.firstLegIf State.firstHomingLeg
  split
  · split
    · exact (s.ripple_checkDriver a).pins
    · rfl
  · rfl

theorem State.firstLegIf_spec (s : State) (named : Axis → Bool) (a : Axis) :
    if named a = true ∧ (s.axis a).phase.isHoming = true ∧ (s.pins.get a).driverFault = true then
      s.FaultedAtLeg (s.firstLegIf named a) a ∧ (s.firstLegIf named a).sender.has (.homeFailed a) = true
    else s.firstLegIf named a = s := by
  have spec := s.firstHomingLeg_spec a
  unfold State.firstLegIf
  cases named a with
  | false => simp
  | true => simpa using spec

section HomeBody

variable {s : State} (hs : s.startup.part ≠ .starting) {w : Word} (lo : 1 ≤ w.toNat) (hi : w.toNat ≤ 7)

include hs lo hi

theorem homeBody_of_locked (h : ∃ a, w.getLsbD (axisNumber a) = true ∧ (s.axis a).locked = true) :
    homeBody [w] s = (s, .refused .locked) := by
  rw [homeBody, readyThen_of_some hs (homeFields_of_good lo hi), if_pos ((any_named _ _).2 h)]

theorem homeBody_of_free (free : ∀ a, w.getLsbD (axisNumber a) = true → (s.axis a).locked = false) :
    homeBody [w] s = if (allAxes.filter fun a => w.getLsbD (axisNumber a)).any
        (fun a => (s.axis a).phase.inMove || (s.axis a).phase.isHoming) = true then (s, .refused .busy)
      else (s.homeAxes (allAxes.filter fun a => w.getLsbD (axisNumber a)), .done) := by
  rw [homeBody, readyThen_of_some hs (homeFields_of_good lo hi), if_neg]
  rw [any_named]
  rintro ⟨a, named, locked⟩
  exact absurd ((free a named).symm.trans locked) (by decide)

end HomeBody

/-- Settles O54: the checks, the state that all named axes enter, then the check of each first leg. -/
theorem homeStartsEveryNamedAxis : Obligations.HomeStartsEveryNamedAxis := by
  intro s e hs
  refine ⟨fun p length executes => ?_, fun w executes => ?_⟩
  · exact exec_eq_ended rfl executes (readyThen_of_none hs (homeFields_of_length length))
  · intro named
    refine ⟨fun bad => ?_, fun lo hi => ⟨fun locked => ?_, fun free => ⟨fun busy => ?_, fun still => ?_⟩⟩⟩
    · exact exec_eq_ended rfl executes (readyThen_of_none hs (homeFields_of_bad bad))
    · refine exec_eq_ended rfl executes (homeBody_of_locked hs lo hi ?_)
      obtain ⟨a, ha, lock⟩ := locked
      exact ⟨a, ha, AxisUnit.locked_eq_true.2 lock⟩
    · have body := homeBody_of_free hs lo hi fun a ha => AxisUnit.locked_eq_false.2 (free a ha)
      rw [if_pos ((any_named _ _).2 (by simpa using busy))] at body
      exact exec_eq_ended rfl executes body
    · have body := homeBody_of_free hs lo hi fun a ha => AxisUnit.locked_eq_false.2 (free a ha)
      rw [if_neg (by rw [any_named]; rintro ⟨a, ha, moves⟩; simp [still a ha] at moves), State.homeAxes_eq] at body
      have done := exec_eq_ended (c := .home) rfl executes body
      intro checked
      have check {q : State} (a : Axis) (pins : q.pins = s.pins) : checked q a (q.firstLegIf named a) := by
        have spec := q.firstLegIf_spec named a
        rw [pins] at spec
        exact spec
      have passes {q t : State} {a : Axis} (h : checked q a t)
          (quiet : ∀ a, named a = true → (s.pins.get a).driverFault = false) : t = q := by
        refine (if_neg ?_).mp h
        rintro ⟨ha, _, fault⟩
        exact absurd ((quiet a ha).symm.trans fault) (by decide)
      have pins1 := (s.homingEntered named).firstLegIf_pins named .v
      have pins2 := (((s.homingEntered named).firstLegIf named .v).firstLegIf_pins named .h).trans pins1
      refine ⟨s.homingLens named, ⟨_, _, _, check .v rfl, check .h pins1, check .f pins2, done⟩, fun quiet => ?_, rfl,
        fun a ha => ?_, fun a ha => ?_⟩
      · have v := passes (check .v (q := s.homingEntered named) rfl) quiet
        have h := (passes (check .h pins1) quiet).trans v
        have f := (passes (check .f pins2) quiet).trans h
        rw [done]
        exact congrArg (fun t => Host.Outcome.next (State.ended t e .done)) f
      · rw [State.homingLens_get, ha]
        rfl
      · rw [State.homingLens_get, ha, if_pos rfl]
        exact s.homingStart_eq a

end Sys2Proof.Machine

namespace Sys2Proof.Machine

/-! ### PLACE (R76, R79, R85 to R87, R93) -/

theorem placeFields_of_length {p : List Word} (h : p.length ≠ 2) : placeFields p = none := by
  unfold placeFields
  split
  · exact absurd rfl h
  · rfl

theorem placeFields_of_good {x y : Word} (h : -3840 ≤ x.toInt ∧ x.toInt ≤ 3840 ∧ -2160 ≤ y.toInt ∧ y.toInt ≤ 2160) :
    placeFields [x, y] = some (x.toInt, y.toInt) := by
  obtain ⟨xlo, xhi, ylo, yhi⟩ := h
  simp [placeFields, signedWithin, xlo, xhi, ylo, yhi]

theorem placeFields_of_bad {x y : Word}
    (h : ¬ (-3840 ≤ x.toInt ∧ x.toInt ≤ 3840 ∧ -2160 ≤ y.toInt ∧ y.toInt ≤ 2160)) : placeFields [x, y] = none := by
  rw [Option.eq_none_iff_forall_ne_some]
  intro f hf
  simp only [placeFields, Option.bind_eq_bind, Option.bind_eq_some_iff, signedWithin_eq] at hf
  obtain ⟨_, ⟨-, hx⟩, _, ⟨-, hy⟩, -⟩ := hf
  exact h ⟨hx.1, hx.2, hy.1, hy.2⟩

theorem lensTarget_eq (c : Cal) (n : Int) : c.lensTarget n
    = (max 0 (min (c.max : Int) ((c.reference : Int) + roundDiv (n * 1024) c.pps))).toNat := by
  rw [Cal.lensTarget, clampInt_eq (by omega)]

/-- The axis can begin a placement move as it stands (R76). -/
def Phase.Stands (p : Phase) : Prop := p = .idle ∨ (∃ m, p = .holding m) ∨ ∃ m, p = .moving m ∧ m.lastIndex = 0

/-- A placeable axis stands, or moves and is to be brought to a stand, or decelerates (R85). -/
theorem Phase.placeable_cases {p : Phase} (h : p.placeable = true) :
    p.Stands ∨ (∃ m, p = .moving m ∧ m.lastIndex ≠ 0) ∨ ∃ m i left, p = .stopping m i left := by
  cases p with
  | idle => exact .inl (.inl rfl)
  | holding m => exact .inl (.inr (.inl ⟨m, rfl⟩))
  | moving m =>
    by_cases slow : m.lastIndex = 0
    · exact .inl (.inr (.inr ⟨m, rfl, slow⟩))
    · exact .inr (.inl ⟨m, rfl, slow⟩)
  | stopping m i left => exact .inr (.inr ⟨m, i, left, rfl⟩)
  | unhomed | homing run | fault => cases h

theorem Phase.Stands.slow {p : Phase} (h : p.Stands) {m : MoveRec} (hp : p = .moving m) : m.lastIndex = 0 := by
  rcases h with e | ⟨q, e⟩ | ⟨q, e, slow⟩ <;> cases hp.symm.trans e
  exact slow

theorem Phase.Stands.not_stopping {p : Phase} (h : p.Stands) (m : MoveRec) (i : StopIntent) (left : Nat) :
    p ≠ .stopping m i left := by
  rcases h with e | ⟨q, e⟩ | ⟨q, e, _⟩ <;> rw [e] <;> exact fun hp => nomatch hp

/-- What a request makes of a placeable axis without a driver fault, by where the axis stands (R76); `out` says that
its report is still to come. -/
structure State.PlacementAsked (s t : State) (a : Axis) (goal : Nat) (out : Bool) : Prop where
  shape : t = { s.setAxis a (t.axis a) with place := if out then s.place else s.place.moveEnded a false }
  there : (s.axis a).phase.Stands → goal = (s.axis a).pos →
    t.axis a = { s.axis a with phase := .idle, lastEnd := .completed } ∧ out = false
  away : (s.axis a).phase.Stands → goal ≠ (s.axis a).pos → out = true ∧ ∃ leg legs,
    legsOf (s.axis a).pos goal (s.axis a).cal.backlash (s.axis a).cal.max (s.approach a) = leg :: legs
      ∧ t.axis a = { s.axis a with
          dirOut := leg.dir, phase := .moving (s.freshRecord goal .placement 1 (leg :: legs)) }
  fast : ∀ m, (s.axis a).phase = .moving m → m.lastIndex ≠ 0 →
    out = true ∧ t.axis a = { s.axis a with phase := .stopping m (.retarget goal) m.lastIndex }
  slowing : ∀ m i left, (s.axis a).phase = .stopping m i left →
    out = true ∧ t.axis a = { s.axis a with phase := .stopping m (.retarget goal) left }

section Requests

variable {s : State} {a : Axis} (goal : Nat)

theorem State.requestPlacement_of_locked (h : (s.axis a).locked = true) : s.requestPlacement a goal = s := by
  simp [State.requestPlacement, h]

section Free

variable (free : (s.axis a).locked = false) (placeable : (s.axis a).phase.placeable = true)

include free placeable

theorem State.requestPlacement_of_stands (h : (s.axis a).phase.Stands) :
    s.requestPlacement a goal = s.beginMove a goal .placement 1 := by
  rcases h with hp | ⟨m, hp⟩ | ⟨m, hp, slow⟩ <;> rw [hp] at placeable <;>
    simp only [State.requestPlacement, free, hp]
  · rfl
  · exact if_pos (by simpa [Phase.placeable] using placeable)
  · rw [if_neg (by decide), if_pos (by simpa [Phase.placeable] using placeable), State.decelerate, if_pos slow,
      State.stand]
    exact if_neg (by simp [free])

theorem State.requestPlacement_of_moving {m : MoveRec} (hp : (s.axis a).phase = .moving m) (fast : m.lastIndex ≠ 0) :
    s.requestPlacement a goal = s.setPhase a (.stopping m (.retarget goal) m.lastIndex) := by
  rw [hp] at placeable
  simp only [State.requestPlacement, free, hp]
  rw [if_neg (by decide), if_pos (by simpa [Phase.placeable] using placeable)]
  exact if_neg fast

theorem State.requestPlacement_of_stopping {m : MoveRec} {i : StopIntent} {left : Nat}
    (hp : (s.axis a).phase = .stopping m i left) :
    s.requestPlacement a goal = s.setPhase a (.stopping m (.retarget goal) left) := by
  rw [hp] at placeable
  simp only [State.requestPlacement, free, hp]
  cases i with
  | idle r => cases placeable
  | holding | retarget t => exact if_pos (by simpa [Phase.placeable] using placeable)

/-- Another axis that the request leaves unlocked keeps its phase: only the level of LENS_FAULT can reach it (R79). -/
theorem State.requestPlacement_other {b : Axis} (hb : b ≠ a)
    (h : ((s.requestPlacement a goal).axis b).locked = false) :
    ((s.requestPlacement a goal).axis b).phase = (s.axis b).phase := by
  rcases Phase.placeable_cases placeable with stands | ⟨m, hp, fast⟩ | ⟨m, i, left, hp⟩
  · rw [State.requestPlacement_of_stands goal free placeable stands] at h ⊢
    by_cases there : (s.axis a).pos = goal
    · rw [State.beginMove_at there, State.axis_completeMove_ne _ _ hb]
    · cases driver : (s.pins.get a).driverFault with
      | false =>
        obtain ⟨_, _, -, e⟩ := State.beginMove_quiet there driver .placement 1
        rw [e, State.axis_setAxis_ne _ _ hb]
      | true =>
        have faulted := State.beginMove_faulted there driver .placement 1
        rw [faulted.others b hb (.inl (AxisUnit.locked_eq_false.1 h).2)]
  · rw [State.requestPlacement_of_moving goal free placeable hp fast, State.setPhase, State.axis_setAxis_ne _ _ hb]
  · rw [State.requestPlacement_of_stopping goal free placeable hp, State.setPhase, State.axis_setAxis_ne _ _ hb]

/-- Without a driver fault a request changes its axis alone, and the tracker hears at most of a completion (R87). -/
theorem State.requestPlacement_asked (quiet : (s.pins.get a).driverFault = false) :
    ∃ out, s.PlacementAsked (s.requestPlacement a goal) a goal out := by
  rcases Phase.placeable_cases placeable with stands | ⟨m, hp, fast⟩ | ⟨m, i, left, hp⟩
  · rw [State.requestPlacement_of_stands goal free placeable stands]
    by_cases there : (s.axis a).pos = goal
    · rw [State.beginMove_at there]
      have axis := s.axis_completeMove a .placement
      exact ⟨false, by rw [axis]; rfl, fun _ _ => ⟨axis, rfl⟩, fun _ away => absurd there.symm away,
        fun m hp fast => absurd (stands.slow hp) fast, fun m i left hp => absurd hp (stands.not_stopping m i left)⟩
    · obtain ⟨leg, legs, hlegs, begun⟩ := State.beginMove_quiet there quiet .placement 1
      rw [begun]
      exact ⟨true, by rw [State.axis_setAxis_same]; rfl, fun _ at_ => absurd at_.symm there,
        fun _ _ => ⟨rfl, leg, legs, hlegs, State.axis_setAxis_same _ _ _⟩,
        fun m hp fast => absurd (stands.slow hp) fast, fun m i left hp => absurd hp (stands.not_stopping m i left)⟩
  · rw [State.requestPlacement_of_moving goal free placeable hp fast]
    refine ⟨true, by rw [State.setPhase, State.axis_setAxis_same]; rfl, fun stands => absurd (stands.slow hp) fast,
      fun stands => absurd (stands.slow hp) fast, fun m' hp' _ => ?_, fun m' i left hp' => (nomatch hp.symm.trans hp')⟩
    cases hp.symm.trans hp'
    exact ⟨rfl, State.axis_setAxis_same _ _ _⟩
  · rw [State.requestPlacement_of_stopping goal free placeable hp]
    refine ⟨true, by rw [State.setPhase, State.axis_setAxis_same]; rfl, fun stands => absurd hp (stands.not_stopping _ _ _),
      fun stands => absurd hp (stands.not_stopping _ _ _), fun m' hp' => (nomatch hp.symm.trans hp'), fun m' i' left' hp' => ?_⟩
    cases hp.symm.trans hp'
    exact ⟨rfl, State.axis_setAxis_same _ _ _⟩

end Free

end Requests

section PlaceBody

variable {s : State} (hs : s.startup.part ≠ .starting) {x y : Word}
  (hr : -3840 ≤ x.toInt ∧ x.toInt ≤ 3840 ∧ -2160 ≤ y.toInt ∧ y.toInt ≤ 2160)

include hs hr

theorem placeBody_eq : placeBody [x, y] s =
    if ¬ ((s.axis .v).homed = true ∧ (s.axis .h).homed = true) then (s, .refused .notHomed)
    else if ¬ ((s.axis .v).locked = false ∧ (s.axis .h).locked = false) then (s, .refused .locked)
    else if ¬ ((s.axis .v).phase.placeable = true ∧ (s.axis .h).phase.placeable = true) then (s, .refused .busy)
    else (s.startPlacement x.toInt y.toInt, .done) := by
  rw [placeBody, readyThen_of_some hs (placeFields_of_good hr)]
  simp only [not_and_or, Bool.not_eq_true, Bool.not_eq_false]

end PlaceBody

/-- The state in which the axes are asked: the targets stored, both outstanding flags set (R86). -/
def State.tracking (s : State) (ox oy : Int) : State :=
  { s with place := { s.place with
      state := .tracking, ox := ox, oy := oy, posVt := (s.axis .v).cal.lensTarget oy
      posHt := (s.axis .h).cal.lensTarget ox, outV := true, outH := true
      shortV := false, shortH := false, settleDue := false } }

theorem State.startPlacement_eq (s : State) (ox oy : Int) : s.startPlacement ox oy =
    ((s.tracking ox oy).requestPlacement .v ((s.axis .v).cal.lensTarget oy)).requestPlacement .h
      ((s.axis .h).cal.lensTarget ox) := rfl

/-- The tracker after both requests: settle due where neither report is still to come (R87). -/
theorem State.tracking_told (s : State) (ox oy : Int) (outV outH : Bool) :
    (let told := if outV then (s.tracking ox oy).place else (s.tracking ox oy).place.moveEnded .v false
     if outH then told else told.moveEnded .h false)
      = { (s.tracking ox oy).place with outV := outV, outH := outH, settleDue := !outV && !outH } := by
  cases outV <;> cases outH <;> rfl

/-- Settles O58: the checks; then each axis asked by the state it is in, with and without a driver fault. -/
theorem placeAsksBothAxes : Obligations.PlaceAsksBothAxes := by
  intro s e hs
  refine ⟨fun p length executes => ?_, fun x y executes => ?_⟩
  · exact exec_eq_ended rfl executes (readyThen_of_none hs (placeFields_of_length length))
  intro ox oy v h target homed unlocked placeable inRange
  have checks (r : inRange) := placeBody_eq hs r
  refine ⟨fun bad => ?_, fun r no => ?_, fun r ok no => ?_, fun r ok free no => ?_, fun r ok free can => ?_,
    fun r ok free can quietV quietH => ?_⟩
  · exact exec_eq_ended rfl executes (readyThen_of_none hs (placeFields_of_bad bad))
  · exact exec_eq_ended rfl executes ((checks r).trans (if_pos no))
  · exact exec_eq_ended rfl executes ((checks r).trans ((if_neg (not_not.2 ok)).trans (if_pos no)))
  · exact exec_eq_ended rfl executes ((checks r).trans ((if_neg (not_not.2 ok)).trans
      ((if_neg (not_not.2 free)).trans (if_pos no))))
  · have taken := exec_eq_ended (c := .place) rfl executes ((checks r).trans ((if_neg (not_not.2 ok)).trans
      ((if_neg (not_not.2 free)).trans (if_neg (not_not.2 can)))))
    intro asked tv th
    have ask {q : State} {a : Axis} (goal : Nat) (pins : q.pins = s.pins) (approach : q.approach a = s.approach a)
        (profiles : q.lens.profiles = s.lens.profiles)
        (ready : (q.axis a).locked = false → (q.axis a).phase.placeable = true) :
        asked q a goal (q.requestPlacement a goal) := by
      refine ⟨fun locked => State.requestPlacement_of_locked goal locked, fun unlocked => ?_⟩
      have ready := ready unlocked
      refine ⟨fun stands there => ?_, fun stands away fault => ?_, fun stands away quiet => ?_, fun m hp fast => ?_,
        fun m i left hp => ?_⟩
      · rw [State.requestPlacement_of_stands goal unlocked ready stands, State.beginMove_at there.symm]
        rfl
      · rw [State.requestPlacement_of_stands goal unlocked ready stands]
        exact State.beginMove_faulted (Ne.symm away) (by rw [pins]; exact fault) _ _
      · rw [State.requestPlacement_of_stands goal unlocked ready stands]
        obtain ⟨leg, legs, hlegs, begun⟩ := State.beginMove_quiet (Ne.symm away) (by rw [pins]; exact quiet)
          .placement 1
        rw [State.freshRecord, profiles] at begun
        exact ⟨leg, legs, by rw [← approach]; exact hlegs, begun⟩
      · exact State.requestPlacement_of_moving goal unlocked ready hp fast
      · exact State.requestPlacement_of_stopping goal unlocked ready hp
    have hv : (v.cal.lensTarget oy) = tv := lensTarget_eq v.cal oy
    have hh : (h.cal.lensTarget ox) = th := lensTarget_eq h.cal ox
    rw [State.startPlacement_eq, State.tracking] at taken
    simp only [show (s.axis .v).cal.lensTarget y.toInt = tv from hv,
      show (s.axis .h).cal.lensTarget x.toInt = th from hh] at taken
    refine ⟨_, _, ask tv rfl rfl rfl fun _ => can.1, ask th ?_ ?_ ?_ fun unlocked => ?_, taken⟩
    · exact (State.ripple_requestPlacement _ _ _).pins
    · exact congrArg Cal.approach ((State.ripple_requestPlacement _ _ _).cal .h)
    · exact (State.ripple_requestPlacement _ _ _).profiles
    · have kept := State.requestPlacement_other (s := s.tracking ox oy) (a := .v) (b := .h) (v.cal.lensTarget oy) free.1
        can.1 (by decide)
      rw [State.tracking, hv, hh] at kept
      rw [kept unlocked]
      exact can.2
  · have taken := exec_eq_ended (c := .place) rfl executes ((checks r).trans ((if_neg (not_not.2 ok)).trans
      ((if_neg (not_not.2 free)).trans (if_neg (not_not.2 can)))))
    obtain ⟨outV, askedV⟩ := State.requestPlacement_asked (s := s.tracking ox oy) (v.cal.lensTarget oy) free.1 can.1 quietV
    rw [State.startPlacement_eq] at taken
    generalize (s.tracking ox oy).requestPlacement .v (v.cal.lensTarget oy) = q at askedV taken
    have axisH : q.axis .h = h := by rw [askedV.shape]; rfl
    obtain ⟨outH, askedH⟩ := State.requestPlacement_asked (s := q) (a := .h) (h.cal.lensTarget ox)
      (by rw [axisH]; exact free.2) (by rw [axisH]; exact can.2) (by rw [askedV.shape]; exact quietH)
    generalize q.requestPlacement .h (h.cal.lensTarget ox) = t at askedH taken
    have place : t.place = { (s.tracking ox oy).place with
        outV := outV, outH := outH, settleDue := !outV && !outH } := by
      rw [askedH.shape, askedV.shape]
      exact s.tracking_told ox oy outV outH
    have shape : { s with lens := t.lens, place := t.place } = t := by
      rw [askedH.shape, askedV.shape]
      rfl
    have keptV : t.axis .v = q.axis .v := by
      rw [askedH.shape]
      exact State.axis_setAxis_ne _ _ (by decide)
    have goalV : t.place.posVt = v.cal.lensTarget oy := by rw [place]; rfl
    have goalH : t.place.posHt = h.cal.lensTarget ox := by rw [place]; rfl
    have toldV : t.place.outV = outV := by rw [place]
    have toldH : t.place.outH = outH := by rw [place]
    refine ⟨t.lens, t.place, by rw [shape]; exact taken, ?_, ?_, ?_, ?_, ?_, ?_, ?_, ?_, ?_, ?_, ?_, ?_, ?_⟩
    · rw [place]; rfl
    · rw [place]; rfl
    · rw [place]; rfl
    · rw [goalV, lensTarget_eq, Int.toNat_of_nonneg (Int.le_max_left _ _)]
    · rw [goalH, lensTarget_eq, Int.toNat_of_nonneg (Int.le_max_left _ _)]
    · rw [place]; rfl
    · rw [place]; rfl
    · rw [place]
    · rw [place]; rfl
    · rw [place]; rfl
    · rw [askedH.shape, askedV.shape]; rfl
    · rw [askedH.shape, askedV.shape]; rfl
    intro a goal out named
    obtain ⟨r, w, asked, axis, approach, profiles, now⟩ : ∃ r w : State, r.PlacementAsked w a goal out ∧ r.axis a = s.axis a
        ∧ r.approach a = s.approach a ∧ r.lens.profiles = s.lens.profiles ∧ t.axis a = w.axis a := by
      rcases named with ⟨rfl, rfl, rfl⟩ | ⟨rfl, rfl, rfl⟩
      · rw [goalV, toldV]
        exact ⟨s.tracking ox oy, q, askedV, rfl, rfl, rfl, keptV⟩
      · rw [goalH, toldH]
        exact ⟨q, t, askedH, axisH, congrArg (·.cal.approach) axisH, by rw [askedV.shape]; rfl, rfl⟩
    have current : t.lens.axes.get a = w.axis a := now
    simp only [current, ← axis]
    refine ⟨fun stands at_ => asked.there stands at_, fun stands elsewhere => ?_, fun m hp fast => asked.fast m hp fast,
      fun m i left hp => asked.slowing m i left hp⟩
    obtain ⟨told, leg, legs, hlegs, moved⟩ := asked.away stands elsewhere
    rw [State.freshRecord, profiles] at moved
    rw [moved, ← approach]
    exact ⟨told, rfl, rfl, leg, legs, hlegs, rfl, rfl⟩

end Sys2Proof.Machine

namespace Sys2Proof.Machine

/-! ### Window ends (R103 to R107, R109) and the upkeep move they may start (R99) -/

@[simp] theorem State.setSensor_setSensor (s : State) (x : Sensor) (u w : SensorUnit) :
    (s.setSensor x u).setSensor x w = s.setSensor x w := by
  cases x <;> rfl

section Sampling

variable {v : Int} (u : SensorUnit) (threshold : Int)

theorem goodSample_iff : goodSample v = true ↔ -160 ≤ v ∧ v ≤ 600 := by
  simp [goodSample]

theorem SensorUnit.sampled_of_good (h : -160 ≤ v ∧ v ≤ 600) : u.sampled threshold v =
    { u with raw := some v, reading := some (filtered u.reading v)
             high := comparatorAfter u.high (filtered u.reading v) threshold, fault := false } :=
  if_pos (goodSample_iff.2 h)

theorem SensorUnit.sampled_of_bad (h : v < -160 ∨ 600 < v) :
    u.sampled threshold v = { u with raw := some v, fault := true } :=
  if_neg fun good => by
    have := goodSample_iff.1 good
    omega

/-- The next window runs under the pending settings where there are any (R103). -/
theorem SensorUnit.nextWindow_eq : u.nextWindow =
    let next : SensorSettings := u.pend.getD ⟨u.window, u.index, u.trip⟩
    { u with window := next.window, index := next.index, trip := next.trip, pend := none } := by
  unfold SensorUnit.nextWindow
  cases h : u.pend with
  | some p => rfl
  | none => cases u; cases h; rfl

variable {u threshold}

/-- A good window end makes its TEMP source pending where the comparator turns HIGH (R106). -/
theorem tempSource_mem_windowSources (x : Sensor) {after : SensorUnit} (good : after.fault = false)
    (low : u.high = false) (high : after.high = true) : tempSource x ∈ windowSources x u after := by
  simp [windowSources, good, low, high]

/-- And TRIP where the reading is at or above the trip temperature (R107). -/
theorem trip_mem_windowSources (x : Sensor) {after : SensorUnit} {r : Int} (good : after.fault = false)
    (reading : after.reading = some r) (trips : (after.trip : Int) ≤ r) : Source.trip ∈ windowSources x u after := by
  simp [windowSources, good, SensorUnit.trips, reading, trips]

theorem windowSources_of_bad (x : Sensor) {after : SensorUnit} (bad : after.fault = true) :
    windowSources x u after = [.sensorFault] :=
  if_pos bad

/-- Without a turn to HIGH and below the trip temperature a good window end makes nothing pending. -/
theorem windowSources_of_quiet (x : Sensor) {after : SensorUnit} {r : Int} (good : after.fault = false)
    (reading : after.reading = some r) (noTurn : u.high = true ∨ after.high = false) (cool : r < after.trip) :
    windowSources x u after = [] := by
  rcases noTurn with h | h <;> simp [windowSources, good, SensorUnit.trips, reading, h, cool]

end Sampling

/-- After a list of sources is made pending each of them is. -/
theorem State.foldl_makePending_get {xs : List Source} {x : Source} (h : x ∈ xs) (s : State) :
    (xs.foldl State.makePending s).prot.pending.get x = true := by
  have pendingStays : ∀ t : State, t.prot.pending.get x = true →
      ∀ ys : List Source, (ys.foldl State.makePending t).prot.pending.get x = true := fun t ht ys =>
    foldl_keeps (P := fun t : State => t.prot.pending.get x = true)
      (fun t y ht => (t.ripple_makePending y).pend x ht) ys ht
  induction xs generalizing s with
  | nil => cases h
  | cons y ys ih =>
    rcases List.mem_cons.1 h with rfl | h
    · exact pendingStays _ (State.makePending_get s x) ys
    · exact ih h _

theorem State.ripple_foldl_makePending (xs : List Source) (s : State) : s.Ripple (xs.foldl State.makePending s) :=
  foldl_keeps (P := s.Ripple) (fun t y h => h.trans (t.ripple_makePending y)) xs (.refl s)

/-! #### Focus upkeep at a window end -/

/-- Focus upkeep after its desired compensation is looked up (R99). -/
def State.desiring (s : State) (d : Int) : State := { s with focus := { s.focus with desired := d } }

theorem State.upkeepWindow_of_bad (s : State) (reading : Option Int) : s.upkeepWindow reading true = s := by
  cases reading <;> rfl

theorem State.upkeepWindow_of_good (s : State) (r : Int) : s.upkeepWindow (some r) false =
    let t := s.desiring (interpolate s.focus.table r)
    if t.upkeepDue then t.startUpkeep else t := rfl

/-- What is handed to focus upkeep changes the desired compensation, and else at most what a move's beginning can. -/
theorem State.ripple_upkeepWindow (s : State) (r : Int) :
    (s.desiring (interpolate s.focus.table r)).Ripple (s.upkeepWindow (some r) false) := by
  rw [State.upkeepWindow_of_good]
  simp only
  split
  · exact State.ripple_startUpkeep _
  · exact .refl _

theorem State.placementMoves_eq_false (s : State) :
    s.placementMoves = false ↔ ∀ a m, (s.axis a).phase.record = some m → m.owner ≠ .placement := by
  simp only [State.placementMoves, List.any_eq_false]
  constructor
  · intro h a m hm
    have none := h a (by cases a <;> decide)
    simp only [hm] at none
    simpa using none
  · intro h a _ moves
    split at moves
    · next m hm => exact h a m hm (by simpa using moves)
    · cases moves

/-- The conditions of R99. -/
theorem State.upkeepDue_iff (s : State) : s.upkeepDue = true ↔
    s.focus.upkeep = true ∧ (s.axis .f).phase = .idle ∧ (s.axis .f).hostLock = false ∧ (s.axis .f).protLock = false
      ∧ (∀ a m, (s.axis a).phase.record = some m → m.owner ≠ .placement)
      ∧ 2 ≤ |s.focus.desired - s.focus.applied| := by
  rw [← State.placementMoves_eq_false, Int.abs_eq_natAbs]
  simp only [State.upkeepDue, Bool.and_eq_true, beq_iff_eq, Bool.not_eq_true', decide_eq_true_eq,
    AxisUnit.locked_eq_false, and_assoc]
  norm_cast

/-- Where the upkeep move is to bring F (R99). -/
def State.upkeepTarget (s : State) : Nat :=
  (max 0 (min ((s.axis .f).cal.max : Int) (s.focus.base + s.focus.desired))).toNat

section Upkeep

variable {s : State}

theorem State.startUpkeep_eq : s.startUpkeep = State.beginMove
    { s with focus := { s.focus with record := some s.focus.desired } } .f s.upkeepTarget .upkeep 0 := by
  rw [State.startUpkeep, State.upkeepTarget, ← clampInt_eq (by omega)]

/-- Standing at the target, F has the desired compensation at once (R67, R100). -/
theorem State.startUpkeep_at (h : (s.axis .f).pos = s.upkeepTarget) : s.startUpkeep =
    { s.setAxis .f { s.axis .f with phase := .idle, lastEnd := .completed } with
      focus := { s.focus with applied := s.focus.desired, record := none } } := by
  rw [State.startUpkeep_eq]
  exact State.beginMove_at (s := { s with focus := { s.focus with record := some s.focus.desired } }) h _ _

theorem State.startUpkeep_quiet (h : (s.axis .f).pos ≠ s.upkeepTarget)
    (quiet : (s.pins.get .f).driverFault = false) :
    ∃ leg legs, legsOf (s.axis .f).pos s.upkeepTarget (s.axis .f).cal.backlash (s.axis .f).cal.max
        (s.axis .f).cal.approach = leg :: legs
      ∧ s.startUpkeep = { s.setAxis .f { s.axis .f with
            dirOut := leg.dir, phase := .moving (s.freshRecord s.upkeepTarget .upkeep 0 (leg :: legs)) } with
          focus := { s.focus with record := some s.focus.desired } } := by
  rw [State.startUpkeep_eq]
  exact State.beginMove_quiet (s := { s with focus := { s.focus with record := some s.focus.desired } })
    h quiet .upkeep 0

/-- The driver fault discards the upkeep record that the move had just been given (R79, R98). -/
theorem State.startUpkeep_faulted (h : (s.axis .f).pos ≠ s.upkeepTarget)
    (fault : (s.pins.get .f).driverFault = true) : s.FaultedAtLeg s.startUpkeep .f := by
  rw [State.startUpkeep_eq]
  exact (State.beginMove_faulted (s := { s with focus := { s.focus with record := some s.focus.desired } })
    h fault .upkeep 0).of_near (s.near_focus _ _ _) (fun _ => rfl) (fun notF => absurd rfl notF) (fun _ => rfl)

end Upkeep

/-- The fault is found alike whatever a sensor holds. -/
theorem State.FaultedAtLeg.setSensor {s t : State} {a : Axis} (h : s.FaultedAtLeg t a) (x : Sensor) (u : SensorUnit) :
    (s.setSensor x u).FaultedAtLeg (t.setSensor x u) a :=
  { h with sensors := by rw [State.setSensor, State.setSensor, h.sensors] }

/-! #### The window end as a whole -/

/-- The state after the sample is latched and judged and its sources are made pending (R104 to R107). -/
def State.judged (s : State) (x : Sensor) (after : SensorUnit) : State :=
  (windowSources x (s.sensor x) after).foldl State.makePending (s.setSensor x after)

theorem State.ripple_judged (s : State) (x : Sensor) (after : SensorUnit) :
    (s.setSensor x after).Ripple (s.judged x after) :=
  State.ripple_foldl_makePending _ _

theorem State.judged_of_quiet {s : State} {x : Sensor} {after : SensorUnit}
    (h : windowSources x (s.sensor x) after = []) : s.judged x after = s.setSensor x after := by
  rw [State.judged, h]
  rfl

/-- What a window end leaves as it was, with the unit of its own sensor. -/
structure State.WindowKept (s t : State) (x : Sensor) (u : SensorUnit) : Prop where
  own : t.sensor x = u
  others : ∀ y, y ≠ x → t.sensor y = s.sensor y
  criteria : t.sensors.criteria = s.sensors.criteria
  startup : t.startup = s.startup
  link : t.link = s.link
  intake : t.intake = s.intake
  table : t.table = s.table
  gen : t.gen = s.gen
  mem : t.mem = s.mem
  pins : t.pins = s.pins
  hold : t.hold = s.hold
  pending : t.pending = s.pending

/-- Whatever rippled out before it, the next window starts in the sensor's unit alone. -/
theorem State.Ripple.windowKept {s q t : State} {x : Sensor} {after : SensorUnit} {d : Int}
    (judged : (s.setSensor x after).Ripple q) (h : (q.desiring d).Ripple t) :
    s.WindowKept (t.setSensor x (t.sensor x).nextWindow) x after.nextWindow where
  own := by
    have sensors : t.sensor x = (s.setSensor x after).sensor x :=
      congrArg (·.units.get x) (h.sensors.trans judged.sensors)
    rw [State.sensor_setSensor_same, sensors, State.sensor_setSensor_same]
  others y hy := by
    have sensors : t.sensor y = (s.setSensor x after).sensor y :=
      congrArg (·.units.get y) (h.sensors.trans judged.sensors)
    rw [State.sensor_setSensor_ne _ _ hy, sensors, State.sensor_setSensor_ne _ _ hy]
  criteria := congrArg (·.criteria) (h.sensors.trans judged.sensors)
  startup := h.startup.trans judged.startup
  link := h.link.trans judged.link
  intake := h.intake.trans judged.intake
  table := h.table.trans judged.table
  gen := h.gen.trans judged.gen
  mem := h.mem.trans judged.mem
  pins := h.pins.trans judged.pins
  hold := h.hold.trans judged.hold
  pending := h.pending.trans judged.pending

/-- The judged state after the LENS reading is handed to focus upkeep (R109). -/
def State.heard (s : State) (x : Sensor) (after : SensorUnit) : State :=
  if x = .lens then (s.judged x after).upkeepWindow after.reading after.fault else s.judged x after

section WindowEnd

variable (s : State) (x : Sensor)

theorem State.windowEnd_eq (v : Int) :
    let after := (s.sensor x).sampled (s.sensors.threshold (s.sensor x)) v
    s.windowEnd x v = (s.heard x after).setSensor x ((s.heard x after).sensor x).nextWindow := by
  cases x <;> rfl

variable {s x} {after : SensorUnit}

theorem State.heard_of_bad (bad : after.fault = true) : s.heard x after = s.judged x after := by
  rw [State.heard, bad, State.upkeepWindow_of_bad, ite_self]

theorem State.heard_of_other (h : x ≠ .lens) : s.heard x after = s.judged x after := if_neg h

theorem State.heard_lens {r : Int} (good : after.fault = false) (reading : after.reading = some r) :
    s.heard .lens after = (s.judged .lens after).upkeepWindow (some r) false := by
  rw [State.heard, good, reading, if_pos rfl]

theorem State.ripple_heard_lens {r : Int} (good : after.fault = false) (reading : after.reading = some r) :
    ((s.judged .lens after).desiring (interpolate s.focus.table r)).Ripple (s.heard .lens after) := by
  have table : (s.judged .lens after).focus.table = s.focus.table := (s.ripple_judged .lens after).focusTable
  rw [State.heard_lens good reading, ← table]
  exact State.ripple_upkeepWindow _ _

variable (s x after) in
theorem State.ripple_heard : ∃ d, ((s.judged x after).desiring d).Ripple (s.heard x after) := by
  by_cases lens : x = .lens
  · subst lens
    cases good : after.fault with
    | true => exact ⟨_, by rw [State.heard_of_bad good]; exact .refl _⟩
    | false =>
      cases reading : after.reading with
      | none => exact ⟨_, by rw [State.heard, if_pos rfl, reading]; exact .refl _⟩
      | some r => exact ⟨_, State.ripple_heard_lens good reading⟩
  · exact ⟨_, by rw [State.heard_of_other lens]; exact .refl _⟩

/-- What the judgement made pending stays so. -/
theorem State.heard_get {y : Source} (h : y ∈ windowSources x (s.sensor x) after) :
    (s.heard x after).prot.pending.get y = true := by
  obtain ⟨d, ripple⟩ := s.ripple_heard x after
  exact ripple.pend y (State.foldl_makePending_get h _)

variable (s x) in
theorem State.windowEnd_kept (v : Int) : s.WindowKept (s.windowEnd x v) x
    ((s.sensor x).sampled (s.sensors.threshold (s.sensor x)) v).nextWindow := by
  obtain ⟨d, ripple⟩ := s.ripple_heard x ((s.sensor x).sampled (s.sensors.threshold (s.sensor x)) v)
  rw [State.windowEnd_eq]
  exact (s.ripple_judged x _).windowKept ripple

/-- The state after a window end, by what it was before the next window started. -/
theorem State.windowEnd_of_heard {v : Int} {q : State}
    (h : s.heard x ((s.sensor x).sampled (s.sensors.threshold (s.sensor x)) v) = q) :
    s.windowEnd x v = q.setSensor x ((s.windowEnd x v).sensor x) := by
  rw [State.windowEnd_eq, h, State.sensor_setSensor_same]

end WindowEnd

/-- Where a good LENS window end makes nothing pending, focus upkeep alone acts on it (R99). -/
theorem State.heard_lens_of_quiet {s : State} {after : SensorUnit} {r : Int} (good : after.fault = false)
    (reading : after.reading = some r) (quiet : windowSources .lens (s.sensor .lens) after = []) :
    s.heard .lens after =
      let q := (s.setSensor .lens after).desiring (interpolate s.focus.table r)
      if q.upkeepDue then q.startUpkeep else q := by
  rw [State.heard_lens good reading, State.judged_of_quiet quiet]
  rfl

/-- Settles O48: the sample by the sign of its judgement, and for the LENS sensor the upkeep by R99. -/
theorem windowEndJudgesTheSample : Obligations.WindowEndJudgesTheSample := by
  intro s x raw free v u threshold next
  have kept := s.windowEnd_kept x v
  have ends := State.windowEnd_of_heard (s := s) (x := x) (v := v) rfl
  refine ⟨s.windowEnd x v, whenReleased_eq free (·.windowEnd x raw.toInt), kept.others, kept.criteria,
    fun good => ?_, fun bad => ?_, kept.startup, kept.link, kept.intake, kept.table, kept.gen, kept.mem, kept.pins,
    kept.hold, kept.pending⟩
  · intro r
    have after := u.sampled_of_good threshold good
    change s.WindowKept _ x (u.sampled threshold v).nextWindow at kept
    change s.windowEnd x v = (s.heard x (u.sampled threshold v)).setSensor x _ at ends
    have same : filtered u.reading v = r := rfl
    rw [same] at after
    generalize u.sampled threshold v = w at after kept ends
    have fault : w.fault = false := by rw [after]
    have reading : w.reading = some r := by rw [after]
    have trip : w.trip = u.trip := by rw [after]
    have high : w.high = comparatorAfter u.high r threshold := by rw [after]
    have pended {y : Source} (h : y ∈ windowSources x u w) : (s.windowEnd x v).prot.pending.get y = true := by
      rw [ends]
      exact State.heard_get h
    have nothing (noTurn : u.high = true ∨ r < threshold) (cool : r < u.trip) : windowSources x u w = [] := by
      refine windowSources_of_quiet x fault reading ?_ (by rw [trip]; exact cool)
      cases low : u.high with
      | true => exact .inl rfl
      | false =>
        have below : r < threshold := noTurn.resolve_left (by simp [low])
        exact .inr (by simp [high, comparatorAfter, low, below])
    refine ⟨kept.own.trans (by rw [SensorUnit.nextWindow_eq, after]; rfl), fun low turns => ?_, fun trips => ?_, ?_, ?_, ?_⟩
    · exact pended (tempSource_mem_windowSources x fault low (by simp [high, comparatorAfter, low, turns]))
    · exact pended (trip_mem_windowSources x fault reading (by rw [trip]; exact trips))
    · rintro rfl
      rw [ends]
      exact (State.ripple_heard_lens fault reading).desired
    · intro other noTurn cool
      rw [State.heard_of_other other, State.judged_of_quiet (nothing noTurn cool), State.setSensor_setSensor] at ends
      exact ends
    · rintro rfl noTurn cool
      rw [State.heard_lens_of_quiet fault reading (nothing noTurn cool)] at ends
      generalize (s.windowEnd .lens v).sensor .lens = n at ends ⊢
      intro f d target due judged
      have conditions : ((s.setSensor .lens w).desiring d).upkeepDue = true ↔ due := State.upkeepDue_iff _
      have next : ((s.setSensor .lens w).desiring d).setSensor .lens n = judged := rfl
      refine ⟨fun not_ => ?_, fun is at_ => ?_, fun is away quiet => ?_, fun is away asserted => ?_⟩
      · exact ends.trans (congrArg (State.setSensor · .lens n) (if_neg (mt conditions.1 not_)))
      · rw [if_pos (conditions.2 is), State.startUpkeep_at at_] at ends
        exact ends
      · obtain ⟨leg, legs, hlegs, begun⟩ := State.startUpkeep_quiet (s := (s.setSensor .lens w).desiring d) away quiet
        rw [if_pos (conditions.2 is), begun] at ends
        exact ⟨leg, legs, hlegs, ends⟩
      · rw [ends, if_pos (conditions.2 is), ← next]
        exact (State.startUpkeep_faulted (s := (s.setSensor .lens w).desiring d) away asserted).setSensor .lens n
  · have after := u.sampled_of_bad threshold bad
    change s.WindowKept _ x (u.sampled threshold v).nextWindow at kept
    change s.windowEnd x v = (s.heard x (u.sampled threshold v)).setSensor x _ at ends
    generalize u.sampled threshold v = w at after kept ends
    have fault : w.fault = true := by rw [after]
    have sources : windowSources x u w = [.sensorFault] := windowSources_of_bad x fault
    refine ⟨kept.own.trans (by rw [SensorUnit.nextWindow_eq, after]), ?_, ?_, fun already => ?_⟩
    · rw [ends]
      exact State.heard_get (by rw [show s.sensor x = u from rfl, sources]; exact List.mem_singleton_self _)
    · rw [ends, State.heard_of_bad fault]
      exact (s.ripple_judged x w).desired
    · have pendingYet : s.judged x w = s.setSensor x w := by
        rw [State.judged, show s.sensor x = u from rfl, sources]
        exact if_pos already
      rw [State.heard_of_bad fault, pendingYet, State.setSensor_setSensor] at ends
      exact ends

end Sys2Proof.Machine

/-! # Placement and focus upkeep

What the tracker and focus upkeep hold each axis to be doing, and that every command keeps them true to the moves. -/

namespace Sys2Proof.Machine

/-! ### Claims on the axes -/

/-- The tracker's outstanding flag of an axis; F has none (R87). -/
def Placement.out (p : Placement) : Axis → Bool
  | .v => p.outV
  | .h => p.outH
  | .f => false

/-- The tracker waits for the end of a placement move of the axis, or focus upkeep for the end of an upkeep move. -/
def State.Claims (s : State) (a : Axis) : Owner → Prop
  | .commanded => False
  | .placement => s.place.out a = true
  | .upkeep => a = .f ∧ s.focus.record.isSome = true

/-- The only move of the axis whose end is waited for is one of this owner. -/
def State.ClaimsOnly (s : State) (a : Axis) (o : Owner) : Prop := ∀ x, s.Claims a x → x = o

/-- The owner of the move that the axis makes, where it makes one. -/
def Phase.owner (p : Phase) : Option Owner := p.record.map (·.owner)

theorem Phase.owner_of_record {p : Phase} {m : MoveRec} (h : p.record = some m) : p.owner = some m.owner := by
  rw [Phase.owner, h]
  rfl

theorem Phase.owner_of_none {p : Phase} (h : p.record = none) : p.owner = none := by
  rw [Phase.owner, h]
  rfl

/-- Only a placement move is brought to a stand for another target (R76). -/
def Phase.RetargetsPlacement : Phase → Prop
  | .stopping m (.retarget _) _ => m.owner = .placement
  | .stopping _ (.idle _) _ | .stopping _ .holding _ => True
  | .unhomed | .homing _ | .idle | .moving _ | .holding _ | .fault => True

theorem Phase.retargetsPlacement_iff {p : Phase} : p.RetargetsPlacement ↔
    ∀ m target left, p = .stopping m (.retarget target) left → m.owner = .placement := by
  constructor
  · rintro h m target left rfl
    exact h
  · intro h
    unfold Phase.RetargetsPlacement
    split
    · exact h _ _ _ rfl
    all_goals trivial

/-- V and H are claimed for placement moves alone, F for upkeep moves alone. -/
theorem State.Claims.owner_eq {s : State} {a : Axis} {o : Owner} (h : s.Claims a o) :
    o = if a = .f then .upkeep else .placement := by
  cases o with
  | commanded => exact h.elim
  | placement =>
    cases a with
    | v | h => rfl
    | f => cases h
  | upkeep =>
    obtain ⟨rfl, _⟩ := h
    rfl

/-- Whoever waits still waits, where neither the tracker nor focus upkeep waits for more. -/
theorem State.Claims.of_told {s t : State} {a : Axis} {o : Owner} (claim : t.Claims a o)
    (out : t.place.out a = true → s.place.out a = true)
    (record : t.focus.record.isSome = true → s.focus.record.isSome = true) : s.Claims a o := by
  cases o with
  | commanded => exact claim
  | placement => exact out claim
  | upkeep => exact claim.imp_right record

theorem State.claimsOnly_placement {s : State} {a : Axis} (h : a ≠ .f) : s.ClaimsOnly a .placement :=
  fun _ claim => by rw [claim.owner_eq, if_neg h]

theorem State.claimsOnly_upkeep (s : State) : s.ClaimsOnly .f .upkeep := fun _ claim => claim.owner_eq

/-! ### The tracker by itself (R87, R88, R90) -/

/-- The digital offset lies within the margins handed with it (R90). -/
def FrameOffset.Within (f : FrameOffset) : Prop :=
  (-(f.margins.left : Int) ≤ f.dx ∧ f.dx ≤ f.margins.right) ∧ -(f.margins.up : Int) ≤ f.dy ∧ f.dy ≤ f.margins.down

/-- The promises of the tracker that speak of no axis. -/
structure Placement.Coherent (p : Placement) : Prop where
  tracking : p.state ≠ .tracking → p.outV = false ∧ p.outH = false ∧ p.settleDue = false
  settle : p.state = .tracking → (p.settleDue = true ↔ p.outV = false ∧ p.outH = false)
  offset : p.frame.Within

theorem Placement.Coherent.cancelled {p : Placement} (h : p.Coherent) : p.cancelled.Coherent where
  tracking _ := ⟨rfl, rfl, rfl⟩
  settle tracking := by cases tracking
  offset := h.offset

theorem Placement.cancelled_out (p : Placement) (a : Axis) : p.cancelled.out a = false := by
  cases a <;> rfl

theorem Placement.moveEnded_of_not_tracking {p : Placement} (h : p.state ≠ .tracking) (a : Axis) (short : Bool) :
    p.moveEnded a short = p := by
  unfold Placement.moveEnded
  split
  · rename_i tracking; exact absurd tracking h
  · rename_i tracking; exact absurd tracking h
  all_goals rfl

theorem Placement.moveEnded_f (p : Placement) (short : Bool) : p.moveEnded .f short = p := by
  cases h : p.state <;> simp [Placement.moveEnded, h]

/-- The second of the two reports makes the settle due, and no other does (R87). -/
theorem Placement.Coherent.moveEnded {p : Placement} (h : p.Coherent) (a : Axis) (short : Bool) :
    (p.moveEnded a short).Coherent := by
  by_cases tracking : p.state = .tracking
  · obtain ⟨v, hh⟩ := Placement.moveEnded_of_tracking tracking short
    have due := h.settle tracking
    cases a with
    | v =>
      rw [v]
      refine ⟨fun no => absurd tracking no, fun _ => ?_, h.offset⟩
      cases out : p.outH <;> simp_all
    | h =>
      rw [hh]
      refine ⟨fun no => absurd tracking no, fun _ => ?_, h.offset⟩
      cases out : p.outV <;> simp_all
    | f => rwa [Placement.moveEnded_f]
  · rwa [Placement.moveEnded_of_not_tracking tracking]

/-- A report clears the outstanding flag of its own axis and leaves the other (R87). -/
theorem Placement.Coherent.moveEnded_out {p : Placement} (h : p.Coherent) (a b : Axis) (short : Bool) :
    (p.moveEnded a short).out b = if b = a then false else p.out b := by
  by_cases tracking : p.state = .tracking
  · obtain ⟨v, hh⟩ := Placement.moveEnded_of_tracking tracking short
    cases a with
    | v => rw [v]; cases b <;> rfl
    | h => rw [hh]; cases b <;> rfl
    | f => rw [Placement.moveEnded_f]; cases b <;> rfl
  · obtain ⟨outV, outH, _⟩ := h.tracking tracking
    rw [Placement.moveEnded_of_not_tracking tracking]
    cases b <;> simp [Placement.out, outV, outH]

theorem State.frameOffset_within (s : State) (m : Margins) : (s.frameOffset m).Within := by
  unfold State.frameOffset
  split
  · exact ⟨clampInt_range (by omega) _, clampInt_range (by omega) _⟩
  · exact ⟨by simp, by simp⟩

/-- The settle decision ends TRACKING once both reports are in (R88). -/
theorem Placement.Coherent.placeFrameStart {s : State} (h : s.place.Coherent) (m : Margins) :
    (s.placeFrameStart m).place.Coherent := by
  have offset := s.frameOffset_within m
  unfold State.placeFrameStart
  simp only
  split
  · rename_i due
    have tracking : s.place.state = .tracking := by
      by_contra no
      obtain ⟨_, _, notDue⟩ := h.tracking no
      exact absurd (due.symm.trans notDue) (by decide)
    obtain ⟨outV, outH⟩ := (h.settle tracking).1 due
    refine ⟨fun _ => ⟨outV, outH, rfl⟩, fun still => ?_, offset⟩
    change (if _ then PlaceState.settled else .partly) = .tracking at still
    split at still <;> cases still
  · exact ⟨h.tracking, h.settle, offset⟩

theorem State.placeFrameStart_out (s : State) (m : Margins) (a : Axis) :
    (s.placeFrameStart m).place.out a = s.place.out a := by
  unfold State.placeFrameStart
  simp only
  split <;> cases a <;> rfl

/-! ### The promise, some axes left waiting -/

/-- Every promise of placement and focus upkeep, except that an axis on the list may not yet make the move that it is
claimed for. -/
structure State.FollowsBut (s : State) (waits : List Axis) : Prop where
  tracker : s.place.Coherent
  claimed : ∀ a ∉ waits, ∀ o, s.Claims a o → (s.axis a).phase.owner = some o
  retarget : ∀ a, (s.axis a).phase.RetargetsPlacement

theorem State.placementSound_iff (s : State) : s.PlacementSound ↔ s.FollowsBut [] := by
  have owner {p : Phase} {o : Owner} : (∃ m, p.record = some m ∧ m.owner = o) ↔ p.owner = some o := by
    simp [Phase.owner]
  constructor
  · intro h
    refine ⟨⟨h.tracking, h.settle, h.dx, h.dy⟩, fun a _ o claim => ?_,
      fun a => Phase.retargetsPlacement_iff.2 (h.retarget a)⟩
    cases o with
    | commanded => exact claim.elim
    | placement =>
      cases a with
      | v => exact owner.1 (h.outV claim)
      | h => exact owner.1 (h.outH claim)
      | f => cases claim
    | upkeep =>
      obtain ⟨rfl, record⟩ := claim
      exact owner.1 (h.upkeep record)
  · intro h
    have claimed {a : Axis} {o : Owner} (claim : s.Claims a o) := owner.2 (h.claimed a List.not_mem_nil o claim)
    exact
      { outV := fun out => claimed (a := .v) (o := .placement) out
        outH := fun out => claimed (a := .h) (o := .placement) out
        tracking := h.tracker.tracking
        settle := h.tracker.settle
        dx := h.tracker.offset.1
        dy := h.tracker.offset.2
        upkeep := fun record => claimed (a := .f) (o := .upkeep) ⟨rfl, record⟩
        retarget := fun a => Phase.retargetsPlacement_iff.1 (h.retarget a) }

/-- Claims may be dropped while every axis goes on as it was. -/
theorem State.FollowsBut.ease {s t : State} {W W' : List Axis} (h : s.FollowsBut W) (tracker : t.place.Coherent)
    (claims : ∀ a ∉ W', ∀ o, t.Claims a o → a ∉ W ∧ s.Claims a o)
    (phase : ∀ a, (t.axis a).phase = (s.axis a).phase) : t.FollowsBut W' where
  tracker := tracker
  claimed a ha o claim := by
    obtain ⟨still, before⟩ := claims a ha o claim
    rw [phase]
    exact h.claimed a still o before
  retarget a := by rw [phase]; exact h.retarget a

theorem State.FollowsBut.widen {s : State} {W W' : List Axis} (h : s.FollowsBut W) (sub : W ⊆ W') : s.FollowsBut W' :=
  h.ease h.tracker (fun _ ha _ claim => ⟨fun mem => ha (sub mem), claim⟩) fun _ => rfl

theorem State.FollowsBut.but {s : State} (h : s.FollowsBut []) (W : List Axis) : s.FollowsBut W :=
  h.widen (List.nil_subset W)

/-- The promise asks only after the tracker, the upkeep record and the axes' phases. -/
theorem State.FollowsBut.of_parts {s t : State} {W : List Axis} (h : s.FollowsBut W) (place : t.place = s.place)
    (record : t.focus.record = s.focus.record) (phase : ∀ a, (t.axis a).phase = (s.axis a).phase) : t.FollowsBut W :=
  h.ease (by rw [place]; exact h.tracker)
    (fun _ ha _ claim => ⟨ha, claim.of_told (by rw [place]; exact id) (by rw [record]; exact id)⟩) phase

/-- A command that leaves these three blocks leaves the promise. -/
theorem State.FollowsBut.of_same {s t : State} {W : List Axis} (h : s.FollowsBut W)
    (same : (t.place, t.focus.record, t.lens) = (s.place, s.focus.record, s.lens)) : t.FollowsBut W := by
  obtain ⟨place, record, lens⟩ : t.place = s.place ∧ t.focus.record = s.focus.record ∧ t.lens = s.lens := by
    simpa using same
  exact h.of_parts place record fun a => by rw [State.axis, lens]; rfl

/-- While an axis makes a move, it is claimed for that move alone. -/
theorem State.FollowsBut.claimsOnly {s : State} (h : s.FollowsBut []) {a : Axis} {m : MoveRec}
    (hm : (s.axis a).phase.record = some m) : s.ClaimsOnly a m.owner :=
  fun o claim => Option.some.inj ((h.claimed a List.not_mem_nil o claim).symm.trans (Phase.owner_of_record hm))

/-- Without one it is not claimed. -/
theorem State.FollowsBut.not_claims {s : State} (h : s.FollowsBut []) {a : Axis} (hp : (s.axis a).phase.record = none)
    (o : Owner) : ¬ s.Claims a o := fun claim => by
  have owner := h.claimed a List.not_mem_nil o claim
  rw [Phase.owner_of_none hp] at owner
  cases owner

/-- An axis that waits may take any phase that makes the move claimed of it. -/
theorem State.FollowsBut.put {s : State} {a : Axis} {W : List Axis} (h : s.FollowsBut (a :: W)) {u : AxisUnit}
    (met : a ∉ W → ∀ o, s.Claims a o → u.phase.owner = some o)
    (retarget : u.phase.RetargetsPlacement) : (s.setAxis a u).FollowsBut W where
  tracker := h.tracker
  claimed b hb o claim := by
    by_cases same : b = a
    · subst same
      rw [State.axis_setAxis_same]
      exact met hb o claim
    · rw [State.axis_setAxis_ne _ _ same]
      exact h.claimed b (by simp [same, hb]) o claim
  retarget b := by
    by_cases same : b = a
    · subst same
      rwa [State.axis_setAxis_same]
    · rw [State.axis_setAxis_ne _ _ same]
      exact h.retarget b

/-- The axis makes a move of the owner that it is claimed for. -/
theorem State.FollowsBut.putMove {s : State} {a : Axis} {W : List Axis} (h : s.FollowsBut (a :: W)) {u : AxisUnit}
    {m : MoveRec} (hm : u.phase.record = some m) (only : s.ClaimsOnly a m.owner)
    (retarget : u.phase.RetargetsPlacement) : (s.setAxis a u).FollowsBut W :=
  h.put (fun _ o claim => by rw [only o claim]; exact Phase.owner_of_record hm) retarget

/-- The axis goes on waiting. -/
theorem State.FollowsBut.putWaiting {s : State} {a : Axis} {W : List Axis} (h : s.FollowsBut W) (ha : a ∈ W)
    {u : AxisUnit} (retarget : u.phase.RetargetsPlacement) :
    (s.setAxis a u).FollowsBut W :=
  State.FollowsBut.put (h.widen (List.subset_cons_self a W)) (fun no => absurd ha no) retarget

/-- An update that leaves the axis's phase. -/
theorem State.FollowsBut.putSame {s : State} (h : s.FollowsBut []) {a : Axis} {u : AxisUnit}
    (same : u.phase = (s.axis a).phase) : (s.setAxis a u).FollowsBut [] := by
  refine (h.but [a]).put (fun no o claim => ?_) ?_ <;> rw [same]
  · exact h.claimed a no o claim
  · exact h.retarget a

/-! ### Ends of moves and stands (R67, R71, R87, R93, R100) -/

/-- The end of a move is told to whoever waits for it, and so the axis is no longer claimed. -/
theorem State.FollowsBut.reported {s t : State} {a : Axis} {W : List Axis} (h : s.FollowsBut (a :: W)) {o : Owner}
    (only : s.ClaimsOnly a o) {short : Bool}
    (place : t.place = if o = .placement then s.place.moveEnded a short else s.place)
    (record : t.focus.record = if o = .upkeep then none else s.focus.record) (lens : t.lens = s.lens) :
    t.FollowsBut W := by
  have tracker : t.place.Coherent := by
    rw [place]
    split
    · exact h.tracker.moveEnded a short
    · exact h.tracker
  have dropped (b : Axis) (x : Owner) (claim : t.Claims b x) : s.Claims b x ∧ (x = o → b ≠ a) := by
    cases x with
    | commanded => exact claim.elim
    | placement =>
      rw [State.Claims, place] at claim
      split at claim
      · rw [h.tracker.moveEnded_out] at claim
        split at claim
        · cases claim
        · exact ⟨claim, fun _ => by assumption⟩
      · exact ⟨claim, fun same => absurd same.symm (by assumption)⟩
    | upkeep =>
      rw [State.Claims, record] at claim
      split at claim
      · cases claim.2
      · exact ⟨claim, fun same => absurd same.symm (by assumption)⟩
  refine h.ease tracker (fun b hb x claim => ?_) fun b => by rw [State.axis, lens]; rfl
  obtain ⟨before, other⟩ := dropped b x claim
  have ne : b ≠ a := by
    rintro rfl
    exact other (only x before) rfl
  exact ⟨by simp [ne, hb], before⟩

section OneAxis

variable {s : State} {a : Axis} {W : List Axis} (h : s.FollowsBut (a :: W))

include h

theorem State.FollowsBut.reportStopped {o : Owner} (only : s.ClaimsOnly a o) : (s.reportStopped a o).FollowsBut W :=
  h.reported only (State.reportStopped_place s a o) (by rw [State.reportStopped_focus]; split <;> rfl)
    (s.reportStopped_lens a o)

theorem State.FollowsBut.reportCompleted {o : Owner} (only : s.ClaimsOnly a o) :
    (s.reportCompleted a o).FollowsBut W := by
  obtain ⟨_, place, focus⟩ := s.reportCompleted_told a o
  exact h.reported only place (by rw [focus]; split <;> rfl) (s.reportCompleted_lens a o)

theorem State.FollowsBut.standIdle (r : HaltReason) {m : MoveRec} (only : s.ClaimsOnly a m.owner) :
    (s.standIdle a r m).FollowsBut W := by
  have standing : (s.setAxis a { s.axis a with phase := .idle, lastEnd := .stopped r.toStop }).FollowsBut (a :: W) :=
    h.putWaiting List.mem_cons_self trivial
  exact State.FollowsBut.reportStopped (by exact standing.of_same rfl) only

theorem State.FollowsBut.completeMove {o : Owner} (only : s.ClaimsOnly a o) : (s.completeMove a o).FollowsBut W := by
  have standing : (s.setAxis a { s.axis a with phase := .idle, lastEnd := .completed }).FollowsBut (a :: W) :=
    h.putWaiting List.mem_cons_self trivial
  exact standing.reportCompleted only

theorem State.FollowsBut.haltMove (r : HaltReason) {m : MoveRec} (only : s.ClaimsOnly a m.owner) :
    (s.haltMove a r m).FollowsBut W := by
  unfold State.haltMove
  split
  · exact h.standIdle r only
  · exact h.putMove rfl only trivial

end OneAxis

/-- The axes whose claims end when this axis loses its homed flag (R93, R100). -/
def clearedWith : Axis → List Axis
  | .v | .h => [.v, .h]
  | .f => [.f]

theorem mem_clearedWith (a : Axis) : a ∈ clearedWith a := by
  cases a <;> simp [clearedWith]

theorem singleton_subset_clearedWith (a : Axis) : [a] ⊆ clearedWith a := by
  simpa using mem_clearedWith a

/-- An axis that loses its homed flag ends the placement or discards the upkeep record, and no claim is left
unmet (R57, R93, R98, R100). -/
theorem State.FollowsBut.clearHomed {s : State} {a : Axis} {W : List Axis} (h : s.FollowsBut W)
    (hW : W ⊆ clearedWith a) {p : Phase}
    (retarget : p.RetargetsPlacement) :
    (s.clearHomed a p).FollowsBut [] := by
  have left : (s.setAxis a { s.axis a with phase := p, pos := 0, ring := [] }).FollowsBut (clearedWith a) :=
    (h.widen hW).putWaiting (mem_clearedWith a) retarget
  have tracker : (s.clearHomed a p).place.Coherent := by
    cases a with
    | v | h => exact h.tracker.cancelled
    | f => exact h.tracker
  refine left.ease tracker (fun b _ o claim => ?_) fun b => by rw [State.axis, State.clearHomed_lens]; rfl
  cases a with
  | v | h =>
    cases o with
    | commanded => exact claim.elim
    | placement => exact absurd ((Placement.cancelled_out _ b).symm.trans claim) (by decide)
    | upkeep =>
      obtain ⟨rfl, record⟩ := claim
      exact ⟨by decide, rfl, record⟩
  | f =>
    cases o with
    | commanded => exact claim.elim
    | placement =>
      refine ⟨fun isF => ?_, claim⟩
      cases List.mem_singleton.1 isF
      cases claim
    | upkeep => cases claim.2

/-- The same with the axis's last end written (R72, R78, R79, R183). -/
theorem State.FollowsBut.clearHomedEnd {s : State} {a : Axis} {W : List Axis} (h : s.FollowsBut W)
    (hW : W ⊆ clearedWith a) {p : Phase} (x : LastEnd)
    (retarget : p.RetargetsPlacement) :
    ((s.clearHomed a p).setLastEnd a x).FollowsBut [] :=
  (h.clearHomed hW retarget).putSame rfl

theorem State.FollowsBut.standUnhomed {s : State} {a : Axis} (h : s.FollowsBut [a]) (r : HaltReason) :
    (s.standUnhomed a r).FollowsBut [] := by
  have cleared : ((s.clearHomed a .unhomed).setLastEnd a (.homeFailed r.toHomeFailure)).FollowsBut [] :=
    h.clearHomedEnd (singleton_subset_clearedWith a) _ trivial
  exact cleared.of_same rfl

theorem State.FollowsBut.haltHoming {s : State} (h : s.FollowsBut []) {a : Axis} (r : HaltReason) {run : HomingRun}
    (hp : (s.axis a).phase = .homing run) : (s.haltHoming a r run).FollowsBut [] := by
  have unclaimed := h.not_claims (a := a) (by rw [hp]; rfl)
  unfold State.haltHoming
  split
  · exact h
  · split
    · exact (h.but [a]).standUnhomed r
    · exact (h.but [a]).put (fun _ o claim => absurd claim (unclaimed o)) trivial

/-! ### Locks and deliveries (R75, R153) -/

theorem State.FollowsBut.lockEffect {s : State} (h : s.FollowsBut []) (a : Axis) : (s.lockEffect a).FollowsBut [] := by
  have waiting := h.but [a]
  unfold State.lockEffect
  split <;> rename_i hp
  · exact waiting.haltMove _ (h.claimsOnly (by rw [hp]; rfl))
  · exact waiting.putMove rfl (h.claimsOnly (by rw [hp]; rfl)) trivial
  · exact waiting.putMove rfl (h.claimsOnly (by rw [hp]; rfl)) trivial
  · exact h
  · exact waiting.standIdle _ (h.claimsOnly (by rw [hp]; rfl))
  · exact h.haltHoming _ hp
  all_goals exact h

theorem State.FollowsBut.setHostLock {s : State} (h : s.FollowsBut []) (a : Axis) (on : Bool) :
    (s.setHostLock a on).FollowsBut [] := by
  have marked : (s.setAxis a { s.axis a with hostLock := on }).FollowsBut [] := h.putSame rfl
  unfold State.setHostLock
  simp only
  split
  · exact marked.lockEffect a
  · exact marked

theorem State.FollowsBut.setProtLock {s : State} (h : s.FollowsBut []) (a : Axis) (on : Bool) :
    (s.setProtLock a on).FollowsBut [] := by
  have marked : (s.setAxis a { s.axis a with protLock := on }).FollowsBut [] := h.putSame rfl
  unfold State.setProtLock
  simp only
  split
  · exact marked.lockEffect a
  · exact marked

theorem State.FollowsBut.deliver {s : State} (h : s.FollowsBut []) : s.deliver.FollowsBut [] := by
  have start : s.delivering.FollowsBut [] := h.of_same rfl
  rw [State.deliver_eq]
  exact ((start.setProtLock .v _).setProtLock .h _).setProtLock .f _

theorem State.FollowsBut.accept {s : State} (h : s.FollowsBut []) : s.accept.FollowsBut [] := by
  unfold State.accept
  split
  · exact State.FollowsBut.deliver (by exact h.of_same rfl)
  · exact h

theorem State.FollowsBut.makePending {s : State} (h : s.FollowsBut []) (x : Source) :
    (s.makePending x).FollowsBut [] := by
  unfold State.makePending
  split
  · exact h
  · exact State.FollowsBut.accept (by exact h.of_same rfl)

/-! ### Faults and moves (R65, R71, R78, R79) -/

theorem State.FollowsBut.enterFault {s : State} {a : Axis} {W : List Axis} (h : s.FollowsBut W)
    (hW : W ⊆ clearedWith a)
    (running : (s.axis a).phase ≠ .fault) (r : FaultReason) : (s.enterFault a r).FollowsBut [] := by
  have faulted : ((s.clearHomed a .fault).setLastEnd a (.fault r)).FollowsBut [] := h.clearHomedEnd hW _ trivial
  unfold State.enterFault
  split
  · rename_i hp; exact absurd hp running
  all_goals exact State.FollowsBut.makePending (by exact faulted.of_same rfl) _

/-- An axis already in FAULT is not changed (R79). -/
theorem State.FollowsBut.enterFaultAny {s : State} (h : s.FollowsBut []) (a : Axis) (r : FaultReason) :
    (s.enterFault a r).FollowsBut [] := by
  by_cases hp : (s.axis a).phase = .fault
  · unfold State.enterFault
    rw [hp]
    exact h
  · exact h.enterFault (List.nil_subset _) hp r

theorem State.FollowsBut.checkDriver {s : State} (h : s.FollowsBut []) (a : Axis) :
    (s.checkDriver a).FollowsBut [] := by
  unfold State.checkDriver
  split
  · exact h.enterFaultAny a _
  · exact h

/-- Axis a has acted on a move: it has faulted and no claim is left unmet, or its own claim is met and the others
stand as they were. -/
def State.ActedOn (s t : State) (a : Axis) (W : List Axis) : Prop :=
  t.FollowsBut [] ∨ t.FollowsBut W ∧ ∀ b, b ≠ a → t.axis b = s.axis b

theorem State.ActedOn.follows {s t : State} {a : Axis} (h : s.ActedOn t a []) : t.FollowsBut [] :=
  h.elim id And.left

section Moves

variable {s : State} {a : Axis} {W : List Axis} (h : s.FollowsBut (a :: W)) (hW : a :: W ⊆ clearedWith a)

include h hW

/-- The axis is MOVING, and then its driver fault input is examined (R79). -/
theorem State.FollowsBut.moving_acts {u : AxisUnit} {m : MoveRec} (hu : u.phase = .moving m)
    (only : s.ClaimsOnly a m.owner) : s.ActedOn ((s.setAxis a u).checkDriver a) a W := by
  have retarget : u.phase.RetargetsPlacement := by rw [hu]; trivial
  unfold State.checkDriver
  split
  · refine .inl (State.FollowsBut.enterFault (h.putWaiting List.mem_cons_self retarget) hW ?_ _)
    rw [State.axis_setAxis_same, hu]
    simp
  · exact .inr ⟨h.putMove (by rw [hu]; rfl) only retarget, fun b hb => State.axis_setAxis_ne _ _ hb⟩

theorem State.FollowsBut.beginLeg_acts {m : MoveRec} (only : s.ClaimsOnly a m.owner) (n : Nat) :
    s.ActedOn (s.beginLeg a m n) a W := by
  unfold State.beginLeg
  exact h.moving_acts hW rfl only

theorem State.FollowsBut.beginMove_acts (target : Nat) {o : Owner} (only : s.ClaimsOnly a o) (n : Nat) :
    s.ActedOn (s.beginMove a target o n) a W := by
  unfold State.beginMove
  simp only
  split
  · exact .inr ⟨h.completeMove only, fun b hb => s.axis_completeMove_ne o hb⟩
  · exact h.beginLeg_acts hW only _

/-- A request makes the axis's next move a placement move, now or once it stands (R76). -/
theorem State.FollowsBut.requestPlacement_acts (notF : a ≠ .f) (free : (s.axis a).locked = false)
    (placeable : (s.axis a).phase.placeable = true) (target : Nat) :
    s.ActedOn (s.requestPlacement a target) a W := by
  have only : s.ClaimsOnly a .placement := State.claimsOnly_placement notF
  have slowing {m : MoveRec} (left : Nat) (owner : m.owner = .placement) :
      s.ActedOn (s.setPhase a (.stopping m (.retarget target) left)) a W := by
    exact .inr ⟨h.putMove rfl (by rwa [owner]) owner, fun b hb => State.axis_setAxis_ne _ _ hb⟩
  rcases Phase.placeable_cases placeable with stands | ⟨m, hp, fast⟩ | ⟨m, i, left, hp⟩
  · rw [State.requestPlacement_of_stands target free placeable stands]
    exact h.beginMove_acts hW target only 1
  · rw [State.requestPlacement_of_moving target free placeable hp fast]
    rw [hp] at placeable
    exact slowing _ (by simpa [Phase.placeable] using placeable)
  · rw [State.requestPlacement_of_stopping target free placeable hp]
    rw [hp] at placeable
    refine slowing _ ?_
    cases i with
    | idle r => cases placeable
    | holding | retarget t => simpa [Phase.placeable] using placeable

end Moves

section OneMove

variable {s : State} {a : Axis} (h : s.FollowsBut [a])

include h

theorem State.FollowsBut.beginLeg {m : MoveRec} (only : s.ClaimsOnly a m.owner) (n : Nat) :
    (s.beginLeg a m n).FollowsBut [] :=
  (h.beginLeg_acts (singleton_subset_clearedWith a) only n).follows

theorem State.FollowsBut.beginMove (target : Nat) {o : Owner} (only : s.ClaimsOnly a o) (n : Nat) :
    (s.beginMove a target o n).FollowsBut [] :=
  (h.beginMove_acts (singleton_subset_clearedWith a) target only n).follows

/-- A move that stands for another target is a placement move, and so is the one it begins (R71, R76). -/
theorem State.FollowsBut.stand {intent : StopIntent} {m : MoveRec} (only : s.ClaimsOnly a m.owner)
    (retarget : ∀ t, intent = .retarget t → m.owner = .placement) : (s.stand a intent m).FollowsBut [] := by
  cases intent with
  | idle r => exact h.standIdle r only
  | holding => exact h.putMove rfl only trivial
  | retarget t =>
    unfold State.stand
    simp only
    split
    · exact h.standIdle _ only
    · rw [retarget t rfl] at only
      exact h.beginMove t only 1

theorem State.FollowsBut.legOver {m : MoveRec} (only : s.ClaimsOnly a m.owner) : (s.legOver a m).FollowsBut [] := by
  unfold State.legOver
  split
  · exact h.beginLeg only _
  · exact h.completeMove only

theorem State.FollowsBut.resumeMove {m : MoveRec} (only : s.ClaimsOnly a m.owner) :
    (s.resumeMove a m).FollowsBut [] := by
  unfold State.resumeMove
  split
  · split
    · exact h.legOver only
    · exact h.beginLeg only _
  · exact h.legOver only

end OneMove

end Sys2Proof.Machine

namespace Sys2Proof.Machine

/-! ### Events of an axis -/

theorem State.FollowsBut.stepMoving {s : State} (h : s.FollowsBut []) {a : Axis} {m : MoveRec}
    (hp : (s.axis a).phase = .moving m) (leg : Leg) : (s.stepMoving a m leg).FollowsBut [] := by
  have only := h.claimsOnly (a := a) (m := m) (by rw [hp]; rfl)
  have waiting := h.but [a]
  unfold State.stepMoving
  simp only
  split
  · exact waiting.legOver only
  · split
    · exact State.FollowsBut.legOver (waiting.putWaiting (List.mem_singleton_self a) (by trivial)) only
    · exact waiting.putMove rfl only trivial

theorem State.FollowsBut.stepStopping {s : State} (h : s.FollowsBut []) {a : Axis} {m : MoveRec} {intent : StopIntent}
    {left : Nat} (hp : (s.axis a).phase = .stopping m intent left) (leg : Leg) :
    (s.stepStopping a m intent left leg).FollowsBut [] := by
  have only := h.claimsOnly (a := a) (m := m) (by rw [hp]; rfl)
  have retarget := h.retarget a
  rw [hp] at retarget
  have placement (t : Nat) (ht : intent = .retarget t) : m.owner = .placement := by
    subst ht
    exact retarget
  have slower (i : Nat) : (Phase.stopping (m.stepped i) intent i).RetargetsPlacement := by
    cases intent with
    | idle r | holding => trivial
    | retarget t => exact retarget
  have waiting := h.but [a]
  unfold State.stepStopping
  simp only
  split
  · exact waiting.stand only placement
  · split
    · exact State.FollowsBut.stand (waiting.putWaiting (List.mem_singleton_self a) (slower _)) only placement
    · exact waiting.putMove rfl only (slower _)

theorem State.FollowsBut.stepHoming {s : State} (h : s.FollowsBut []) {a : Axis} {run : HomingRun}
    (hp : (s.axis a).phase = .homing run) : (s.stepHoming a run).FollowsBut [] := by
  have unclaimed := h.not_claims (a := a) (by rw [hp]; rfl)
  have waiting := h.but [a]
  unfold State.stepHoming
  split
  · simp only
    split
    · exact State.FollowsBut.standUnhomed (waiting.putWaiting (List.mem_singleton_self a) (by trivial)) _
    · exact waiting.put (fun _ o claim => absurd claim (unclaimed o)) trivial
  · split
    · exact waiting.put (fun _ o claim => absurd claim (unclaimed o)) trivial
    · exact h

theorem State.FollowsBut.stepAxis {s : State} (h : s.FollowsBut []) (a : Axis) : (s.stepAxis a).FollowsBut [] := by
  unfold State.stepAxis
  split <;> rename_i hp
  · split
    · exact h.stepMoving hp _
    · exact h
  · split
    · exact h.stepStopping hp _
    · exact h
  · exact h.stepHoming hp
  all_goals exact h

theorem State.FollowsBut.rezeroFocus {s : State} (h : s.FollowsBut []) (a : Axis) :
    (s.rezeroFocus a).FollowsBut [] := by
  cases a with
  | v | h => exact h
  | f =>
    exact h.ease h.tracker (fun _ _ _ claim => ⟨List.not_mem_nil, claim.of_told id (by rintro ⟨⟩)⟩) fun _ => rfl

/-- A closure is told to the owner of the move it ends (R77, R87, R100). -/
theorem State.FollowsBut.closeOnMove {s : State} (h : s.FollowsBut []) {a : Axis} {m : MoveRec}
    (hm : (s.axis a).phase.record = some m) : (s.closeOnMove a m).FollowsBut [] := by
  have zeroed (x : LastEnd) : (((s.setAxis a { s.axis a with
      phase := .idle, pos := 0, lastEnd := x }).reportStopped a m.owner).rezeroFocus a).FollowsBut [] :=
    State.FollowsBut.rezeroFocus (State.FollowsBut.reportStopped
      ((h.but [a]).putWaiting (List.mem_singleton_self a) (by trivial)) (h.claimsOnly hm)) a
  unfold State.closeOnMove
  simp only
  split
  · exact State.FollowsBut.makePending (by exact (zeroed _).of_same rfl) _
  · exact (zeroed _).of_same rfl

theorem State.FollowsBut.beginHomingLeg {s : State} (h : s.FollowsBut []) {a : Axis} {run : HomingRun}
    (hp : (s.axis a).phase = .homing run) (p : HomingPhase) : (s.beginHomingLeg a p).FollowsBut [] :=
  State.FollowsBut.checkDriver
    ((h.but [a]).put (fun _ o claim => absurd claim (h.not_claims (by rw [hp]; rfl) o)) (by trivial)) a

theorem State.FollowsBut.switchCloses {s : State} (h : s.FollowsBut []) (a : Axis) :
    (s.switchCloses a).FollowsBut [] := by
  unfold State.switchCloses
  split <;> rename_i hp
  · exact h.closeOnMove (by rw [hp]; rfl)
  · exact h.closeOnMove (by rw [hp]; rfl)
  · split
    · exact (h.but [a]).standUnhomed _
    · exact h.beginHomingLeg hp _
    · exact h
  all_goals exact h

theorem State.FollowsBut.switchOpens {s : State} (h : s.FollowsBut []) (a : Axis) :
    (s.switchOpens a).FollowsBut [] := by
  unfold State.switchOpens
  split
  · rename_i hp
    have homed : (s.setAxis a { s.axis a with phase := .idle, pos := 0, lastEnd := .homed }).FollowsBut [] :=
      (h.but [a]).put (fun _ o claim => absurd claim (h.not_claims (by rw [hp]; rfl) o)) trivial
    split
    · exact (h.but [a]).standUnhomed _
    · exact homed.of_same rfl
    · exact h
  all_goals exact h

theorem State.FollowsBut.boundReached {s : State} (h : s.FollowsBut []) (a : Axis) :
    (s.boundReached a).FollowsBut [] := by
  have faulted (x : LastEnd) : ((s.clearHomed a .fault).setLastEnd a x).FollowsBut [] :=
    h.clearHomedEnd (List.nil_subset _) x trivial
  unfold State.boundReached
  split
  · split
    · exact h
    · split
      · exact h
      · exact State.FollowsBut.makePending (by exact (faulted _).of_same rfl) _
  all_goals exact h

theorem State.FollowsBut.legTimeout {s : State} (h : s.FollowsBut []) (a : Axis) : (s.legTimeout a).FollowsBut [] := by
  unfold State.legTimeout
  split
  · exact h.enterFaultAny a _
  · exact h.enterFaultAny a _
  all_goals exact h

/-! ### Messages to the lens controller -/

theorem State.FollowsBut.stopAxis {s : State} (h : s.FollowsBut []) (a : Axis) : (s.stopAxis a).FollowsBut [] := by
  unfold State.stopAxis
  split <;> rename_i hp
  · exact (h.but [a]).haltMove _ (h.claimsOnly (by rw [hp]; rfl))
  · exact (h.but [a]).standIdle _ (h.claimsOnly (by rw [hp]; rfl))
  · exact h.haltHoming _ hp
  all_goals exact h

theorem State.FollowsBut.cancelled {s t : State} (h : s.FollowsBut []) (place : t.place = s.place.cancelled)
    (record : t.focus.record = s.focus.record) (lens : t.lens = s.lens) : t.FollowsBut [] := by
  refine h.ease (by rw [place]; exact h.tracker.cancelled)
    (fun b _ o claim => ⟨List.not_mem_nil, claim.of_told ?_ (by rw [record]; exact id)⟩)
    fun b => by rw [State.axis, lens]; rfl
  rw [place, Placement.cancelled_out]
  rintro ⟨⟩

theorem State.FollowsBut.handOver {s : State} (h : s.FollowsBut []) (a : Axis) (target : Nat) :
    (s.handOver a target).FollowsBut [] := by
  cases a with
  | v | h => exact h.cancelled rfl rfl rfl
  | f => exact h.of_same rfl

/-- A move that the host asks for begins on an IDLE axis, which nothing claims (R66, R70). -/
theorem State.FollowsBut.beginHosted {s : State} (h : s.FollowsBut []) {a : Axis}
    (hr : (s.axis a).refusesMove = none) {u : AxisUnit} (hu : u.phase = (s.axis a).phase) (target n : Nat) :
    (((s.handOver a target).setAxis a u).beginMove a target .commanded n).FollowsBut [] := by
  have handed : ((s.handOver a target).setAxis a u).FollowsBut [] :=
    (h.handOver a target).putSame (by rw [State.axis_handOver, hu])
  refine (handed.but [a]).beginMove target (fun o claim => absurd claim (handed.not_claims ?_ o)) n
  obtain ⟨idle, _⟩ := AxisUnit.refusesMove_eq_none.1 hr
  rw [State.axis_setAxis_same, hu, idle]
  rfl

theorem State.FollowsBut.move {s : State} (h : s.FollowsBut []) (p : List Word) : (moveBody p s).1.FollowsBut [] := by
  refine readyThen_keeps (P := fun t => t.FollowsBut []) h fun f _ => ?_
  simp only
  split
  · exact h
  · rename_i accepted
    exact h.beginHosted accepted (by rw [AxisUnit.push_eq]) _ _

theorem State.FollowsBut.returnMove {s : State} (h : s.FollowsBut []) (p : List Word) :
    (returnBody p s).1.FollowsBut [] := by
  refine readyThen_keeps (P := fun t => t.FollowsBut []) h fun a _ => ?_
  simp only
  split
  · exact h
  · exact h
  · rename_i accepted _
    exact h.beginHosted accepted (by rfl) _ _

theorem State.FollowsBut.hold {s : State} (h : s.FollowsBut []) (p : List Word) : (holdBody p s).1.FollowsBut [] := by
  refine readyThen_keeps (P := fun t => t.FollowsBut []) h fun a _ => ?_
  split <;> rename_i hp
  · have only := h.claimsOnly (a := a) (by rw [hp]; rfl)
    rw [State.decelerate_holding]
    split
    · exact (h.but [a]).putMove rfl only trivial
    · exact (h.but [a]).putMove rfl only trivial
  all_goals exact h

theorem State.FollowsBut.resume {s : State} (h : s.FollowsBut []) (p : List Word) :
    (resumeBody p s).1.FollowsBut [] := by
  refine readyThen_keeps (P := fun t => t.FollowsBut []) h fun a _ => ?_
  split
  · exact h
  · split <;> rename_i hp
    · exact (h.but [a]).resumeMove (h.claimsOnly (by rw [hp]; rfl))
    all_goals exact h

theorem State.FollowsBut.lensCal {s : State} (h : s.FollowsBut []) (p : List Word) :
    (lensCalBody p s).1.FollowsBut [] := by
  refine readyThen_keeps (P := fun t => t.FollowsBut []) h fun (a, cal) _ => ?_
  simp only
  split
  · exact h
  · split
    · exact h
    · exact h.putSame rfl

theorem State.FollowsBut.profileSet {s : State} (h : s.FollowsBut []) (p : List Word) :
    (profileBody p s).1.FollowsBut [] :=
  readyThen_keeps (P := fun t => t.FollowsBut []) h fun _ _ => h.of_parts rfl rfl fun _ => rfl

/-- All named axes enter HOMING, then each first leg is checked (R181). -/
theorem State.FollowsBut.homeAxes {s : State} (h : s.FollowsBut []) (as : List Axis) :
    (s.homeAxes as).FollowsBut [] := by
  have enter (t : State) (a : Axis) (ht : t.FollowsBut []) : (t.enterHoming a).FollowsBut [] :=
    (ht.clearHomed (List.nil_subset _) (by trivial)).putSame rfl
  have first (t : State) (a : Axis) (ht : t.FollowsBut []) : (t.firstHomingLeg a).FollowsBut [] := by
    unfold State.firstHomingLeg
    split
    · exact ht.checkDriver a
    · exact ht
  exact foldl_keeps (P := fun t : State => t.FollowsBut []) first as
    (foldl_keeps (P := fun t : State => t.FollowsBut []) enter as h)

theorem State.FollowsBut.home {s : State} (h : s.FollowsBut []) (p : List Word) : (homeBody p s).1.FollowsBut [] := by
  refine readyThen_keeps (P := fun t => t.FollowsBut []) h fun as _ => ?_
  repeat' split
  · exact h
  · exact h
  · exact h.homeAxes as

/-! ### PLACE and upkeep (R76, R86, R99) -/

/-- Both axes are claimed before either is asked (R86). -/
theorem State.FollowsBut.tracking {s : State} (h : s.FollowsBut []) (ox oy : Int) :
    (s.tracking ox oy).FollowsBut [.v, .h] := by
  refine h.ease ⟨fun no => absurd rfl no, fun _ => ⟨by rintro ⟨⟩, by rintro ⟨⟨⟩, _⟩⟩,
    h.tracker.offset⟩ (fun b hb o claim => ⟨List.not_mem_nil, ?_⟩) fun _ => rfl
  cases b with
  | v | h => simp at hb
  | f => exact claim.of_told id id

/-- An axis that is locked or not placeable is left as it is (R76). -/
theorem State.requestPlacement_of_unable {s : State} {a : Axis} {target : Nat}
    (h : ¬((s.axis a).locked = false ∧ (s.axis a).phase.placeable = true)) : s.requestPlacement a target = s := by
  unfold State.requestPlacement
  simp only
  split
  · rfl
  · rename_i free
    have stuck : (s.axis a).phase.placeable = false := by simpa [free] using h
    split <;> rename_i hp <;> rw [hp] at stuck
    case h_1 => cases stuck
    case h_2 | h_3 | h_4 | h_5 => exact if_neg (by simpa [Phase.placeable] using stuck)

/-- A request where no other claim waits (R76). -/
theorem State.FollowsBut.requestPlacement {s : State} (h : s.FollowsBut []) {a : Axis} (notF : a ≠ .f) (target : Nat) :
    (s.requestPlacement a target).FollowsBut [] := by
  by_cases able : (s.axis a).locked = false ∧ (s.axis a).phase.placeable = true
  · obtain ⟨free, placeable⟩ := able
    exact ((h.but [a]).requestPlacement_acts (singleton_subset_clearedWith a) notF free placeable target).follows
  · rwa [State.requestPlacement_of_unable able]

/-- V is asked while H waits: where V faults no claim is left, and else H is still as it was (R79, R86, R93). -/
theorem State.FollowsBut.startPlacement {s : State} (h : s.FollowsBut []) (freeV : (s.axis .v).locked = false)
    (freeH : (s.axis .h).locked = false) (placeV : (s.axis .v).phase.placeable = true)
    (placeH : (s.axis .h).phase.placeable = true) (ox oy : Int) : (s.startPlacement ox oy).FollowsBut [] := by
  rw [State.startPlacement_eq]
  rcases (h.tracking ox oy).requestPlacement_acts (List.Subset.refl _) (by decide) freeV placeV
    ((s.axis .v).cal.lensTarget oy) with ended | ⟨asked, others⟩
  · exact ended.requestPlacement (by decide) _
  · have same := others .h (by decide)
    refine (asked.requestPlacement_acts (singleton_subset_clearedWith .h) (by decide) ?_ ?_ _).follows <;> rw [same]
    · exact freeH
    · exact placeH

theorem State.FollowsBut.place {s : State} (h : s.FollowsBut []) (p : List Word) : (placeBody p s).1.FollowsBut [] := by
  refine readyThen_keeps (P := fun t => t.FollowsBut []) h fun (ox, oy) _ => ?_
  simp only
  split
  · exact h
  · split
    · exact h
    · rename_i free
      split
      · exact h
      · rename_i placeable
        simp only [not_or, Bool.not_eq_true, Bool.not_eq_false] at free placeable
        obtain ⟨freeV, freeH⟩ := free
        obtain ⟨placeV, placeH⟩ := placeable
        exact h.startPlacement freeV freeH placeV placeH ox oy

theorem State.FollowsBut.startUpkeep {s : State} (h : s.FollowsBut []) : s.startUpkeep.FollowsBut [] := by
  have recorded : State.FollowsBut { s with focus := { s.focus with record := some s.focus.desired } } [.f] := by
    refine h.ease h.tracker (fun b hb o claim => ⟨List.not_mem_nil, ?_⟩) fun _ => rfl
    cases o with
    | commanded | placement => exact claim
    | upkeep => exact absurd (List.mem_singleton.2 claim.1) hb
  exact recorded.beginMove _ (State.claimsOnly_upkeep _) 0

theorem State.FollowsBut.windowEnd {s : State} (h : s.FollowsBut []) (x : Sensor) (sample : Int) :
    (s.windowEnd x sample).FollowsBut [] :=
  State.windowEnd_keeps (P := fun t => t.FollowsBut []) (fun _ h => h.of_same rfl) (fun _ y h => h.makePending y)
    (fun _ _ h => h.of_same rfl) (fun _ _ h => h.startUpkeep) (fun _ h => h.of_same rfl) h

/-! ### Frame starts and counters -/

theorem State.FollowsBut.placeFrameStart {s : State} (h : s.FollowsBut []) (m : Margins) :
    (s.placeFrameStart m).FollowsBut [] := by
  obtain ⟨sender, place, _, e⟩ := s.placeFrameStart_frame m
  refine h.ease (h.tracker.placeFrameStart m) (fun b _ o claim => ⟨List.not_mem_nil, claim.of_told ?_ ?_⟩)
    fun b => by rw [e]; rfl
  · rw [State.placeFrameStart_out]
    exact id
  · rw [e]
    exact id

theorem State.sizeChecked_focus (s : State) (parity : Parity) (z : Size) :
    (s.sizeChecked parity z).focus = s.focus := by
  obtain ⟨_, _, _, _, _, _, _, whole⟩ := s.inputFrameStart_frame parity z
  obtain ⟨_, _, _, placed⟩ := (s.sizeChecked parity z).placeFrameStart_frame (s.sizeChecked parity z).handedMargins
  calc (s.sizeChecked parity z).focus
      = ((s.sizeChecked parity z).placeFrameStart (s.sizeChecked parity z).handedMargins).focus := by rw [placed]
    _ = (s.inputFrameStart parity z).focus := rfl
    _ = s.focus := by rw [whole]

theorem State.FollowsBut.inputFrameStart {s : State} (h : s.FollowsBut []) (parity : Parity) (z : Size) :
    (s.inputFrameStart parity z).FollowsBut [] := by
  obtain ⟨place, lens, _⟩ := s.sizeChecked_blocks parity z
  have checked : (s.sizeChecked parity z).FollowsBut [] :=
    h.of_parts place (by rw [s.sizeChecked_focus]) fun a => by rw [State.axis, lens]; rfl
  rw [State.inputFrameStart_eq_placed]
  exact (checked.placeFrameStart _).of_same rfl

theorem State.FollowsBut.counters {s : State} (h : s.FollowsBut []) (p : List Word) :
    (countersBody p s).1.FollowsBut [] := by
  refine fieldsThen_keeps (P := fun t => t.FollowsBut []) h fun x _ => ?_
  simp only
  split
  · exact h.ease ⟨h.tracker.tracking, h.tracker.settle, h.tracker.offset⟩
      (fun b _ _ claim => ⟨List.not_mem_nil, claim.of_told (by cases b <;> exact id) id⟩) fun _ => rfl
  · exact h

/-! ### Resets, fan updates and protection -/

/-- Nothing is claimed, and nothing is to be retargeted. -/
theorem State.FollowsBut.of_reset {s : State} (place : s.place = resetPlacement) (record : s.focus.record = none)
    (retarget : ∀ a, (s.axis a).phase.RetargetsPlacement) : s.FollowsBut [] := by
  refine ⟨?_, fun a _ o claim => ?_, retarget⟩
  · rw [place]
    exact ⟨fun _ => ⟨rfl, rfl, rfl⟩, by rintro ⟨⟩, ⟨by decide, by decide⟩⟩
  · cases o with
    | commanded => exact claim.elim
    | placement =>
      rw [State.Claims, place] at claim
      cases a <;> cases claim
    | upkeep =>
      rw [State.Claims, record] at claim
      cases claim.2

theorem State.followsBut_powerOn (s : State) (cause : RestartCause) (hold : Hold) :
    (s.powerOnValues cause hold).FollowsBut [] :=
  .of_reset rfl rfl fun a => by cases a <;> trivial

theorem State.followsBut_softReset (s : State) : s.softReset.FollowsBut [] := by
  have accepted : s.softAccepted.FollowsBut [] := by
    refine .of_reset rfl rfl fun a => ?_
    obtain ⟨_, _, _, _, stays, leaves⟩ := (s.axis a).softReset_spec
    rw [State.softAccepted_axis]
    by_cases idle : (s.axis a).phase = .idle
    · rw [(stays idle).1]
      trivial
    · rw [(leaves idle).1]
      trivial
  rw [State.softReset_eq]
  split
  · exact accepted
  · exact State.FollowsBut.makePending (by exact accepted.of_same rfl) _

theorem State.FollowsBut.fanUpdate {s : State} (h : s.FollowsBut []) : s.fanUpdate.FollowsBut [] :=
  State.fanUpdate_keeps (P := fun t => t.FollowsBut []) (R := fun t => t.FollowsBut []) (fun _ h => h.of_same rfl)
    (fun _ x h => State.judgeFan_keeps (P := fun t => t.FollowsBut []) (fun _ _ _ h => h.of_same rfl)
      (fun _ y h => h.makePending y) x h)
    (fun _ h => h.of_same rfl) (fun _ _ h => h.of_same rfl) h

theorem State.FollowsBut.checkEnds {s : State} (h : s.FollowsBut []) (passed : Bool) :
    (s.checkEnds passed).FollowsBut [] := by
  unfold State.checkEnds
  simp only
  repeat' split
  · exact h.of_same rfl
  · exact State.FollowsBut.makePending (by exact h.of_same rfl) _
  · exact h

theorem State.FollowsBut.linkLoss {s : State} (h : s.FollowsBut []) : s.linkLoss.FollowsBut [] := by
  unfold State.linkLoss
  simp only
  split
  · exact h
  · exact State.FollowsBut.makePending (by exact h.of_same rfl) _

theorem State.FollowsBut.lower {s : State} (h : s.FollowsBut []) (p : List Word) :
    (lowerBody p s).1.FollowsBut [] := by
  refine fieldsThen_keeps (P := fun t => t.FollowsBut []) h fun w _ => ?_
  split
  · exact h
  · split
    · exact h
    · unfold State.lowerTo
      simp only
      split
      · exact h
      · exact State.FollowsBut.deliver (by exact h.of_same rfl)

theorem State.FollowsBut.actions {s : State} (h : s.FollowsBut []) (p : List Word) :
    (actionsBody p s).1.FollowsBut [] := by
  refine fieldsThen_keeps (P := fun t => t.FollowsBut []) h fun table _ => ?_
  simp only
  split
  · exact State.FollowsBut.deliver (by exact h.of_same rfl)
  · exact h.of_same rfl

theorem State.FollowsBut.blankingSlot {s : State} (h : s.FollowsBut []) (words : List Word) :
    (s.blankingSlot words).FollowsBut [] := by
  unfold State.blankingSlot State.arrive
  simp only
  repeat' split
  all_goals exact h.of_same rfl

theorem State.FollowsBut.endGeneration {s : State} (h : s.FollowsBut []) : s.endGeneration.FollowsBut [] := by
  unfold State.endGeneration
  simp only
  repeat' split
  all_goals exact h.of_same rfl

/-! ### Every command -/

/-- Command by command: the axis events and the lens messages, PLACE and upkeep, then what can deliver a lock; the rest
leave the tracker, the upkeep record and the axes. -/
theorem State.follows_kept : State.Kept fun s => s.FollowsBut [] where
  weaken _ h := h
  queue _ _ h := h.of_same rfl
  ended _ _ _ _ h := h.of_same rfl
  holding _ _ h := h.of_same rfl
  powerOn s cause hold := s.followsBut_powerOn cause hold
  checkEnds _ passed h := h.checkEnds passed
  frameStart _ parity z h := h.inputFrameStart parity z
  activeLine s xs h := by obtain ⟨_, _, e⟩ := s.activeLine_frame xs; rw [e]; exact h.of_same rfl
  blankingSlot _ words h := h.blankingSlot words
  linkLoss _ h := h.linkLoss
  sendLine s h := by obtain ⟨_, e⟩ := s.sendLine_frame; rw [e]; exact h.of_same rfl
  endFrame s h := by obtain ⟨_, _, e⟩ := s.endFrame_frame; rw [e]; exact h.of_same rfl
  send s h := by obtain ⟨_, _, e⟩ := s.send_frame; rw [e]; exact h.of_same rfl
  silent _ h := h.of_same rfl
  fanUpdate _ h := h.fanUpdate
  tachPulse _ _ h := h.of_same rfl
  windowEnd _ x sample h := h.windowEnd x sample
  stepAxis _ a h := h.stepAxis a
  pins _ _ _ h := h.of_same rfl
  switchCloses _ a h := h.switchCloses a
  switchOpens _ a h := h.switchOpens a
  boundReached _ a h := h.boundReached a
  legTimeout _ a h := h.legTimeout a
  driverFault _ a h := h.enterFaultAny a _
  endGeneration _ h := h.endGeneration
  softReset s _ := s.followsBut_softReset
  stop _ _ h := readyThen_keeps (P := fun t => t.FollowsBut []) h fun a _ => h.stopAxis a
  lock _ _ h := readyThen_keeps (P := fun t => t.FollowsBut []) h fun a _ => h.setHostLock a true
  unlock _ _ h := readyThen_keeps (P := fun t => t.FollowsBut []) h fun a _ => h.setHostLock a false
  clear s p h := by obtain ⟨_, e⟩ := clearBody_frame p s; rw [e]; exact h.of_same rfl
  lower _ p h := h.lower p
  eventAck s p h := by obtain ⟨_, e⟩ := eventAckBody_frame p s; rw [e]; exact h.of_same rfl
  move _ p h := h.move p
  hold _ p h := h.hold p
  resume _ p h := h.resume p
  returnMove _ p h := h.returnMove p
  home _ p h := h.home p
  place _ p h := h.place p
  placeCancel _ _ h := readyThen_keeps (P := fun t => t.FollowsBut []) h fun _ _ => h.cancelled rfl rfl rfl
  install s p h := by obtain ⟨_, e⟩ := installBody_frame p s; rw [e]; exact h.of_same rfl
  pictureMode s p h := by obtain ⟨_, e⟩ := pictureModeBody_frame p s; rw [e]; exact h.of_same rfl
  tableOpen s p h := by obtain ⟨_, e⟩ := tableOpenBody_frame p s; rw [e]; exact h.of_same rfl
  tableRun s p h := by obtain ⟨_, e⟩ := tableRunBody_frame p s; rw [e]; exact h.of_same rfl
  tableCommit s p h := by obtain ⟨_, e⟩ := tableCommitBody_frame p s; rw [e]; exact h.of_same rfl
  corners s p h := by obtain ⟨_, _, e⟩ := cornersBody_frame p s; rw [e]; exact h.of_same rfl
  lensCal _ p h := h.lensCal p
  profile _ p h := h.profileSet p
  focusTable _ _ h := readyThen_keeps (P := fun t => t.FollowsBut []) h fun _ _ => h.of_same rfl
  focusUpkeep _ _ h := readyThen_keeps (P := fun t => t.FollowsBut []) h fun _ _ => h.of_same rfl
  sensorSet s p h := by obtain ⟨_, e⟩ := sensorSetBody_frame p s; rw [e]; exact h.of_same rfl
  thresholds s p h := by obtain ⟨_, e⟩ := thresholdsBody_frame p s; rw [e]; exact h.of_same rfl
  brightness s p h := by obtain ⟨_, e⟩ := brightnessBody_frame p s; rw [e]; exact h.of_same rfl
  fanCurve s p h := by obtain ⟨_, e⟩ := fanCurveBody_frame p s; rw [e]; exact h.of_same rfl
  fanLimits s p h := by obtain ⟨_, e⟩ := fanLimitsBody_frame p s; rw [e]; exact h.of_same rfl
  quiet s p h := by obtain ⟨_, e⟩ := quietBody_frame p s; rw [e]; exact h.of_same rfl
  levels _ _ h :=
    fieldsThen_keeps (P := fun t => t.FollowsBut []) h fun _ _ => State.FollowsBut.accept (by exact h.of_same rfl)
  actions _ p h := h.actions p
  eventMask s p h := by obtain ⟨_, e⟩ := eventMaskBody_frame p s; rw [e]; exact h.of_same rfl
  queryCounters _ p h := h.counters p
  queryCause s p h := by obtain ⟨_, e⟩ := causeBody_frame p s; rw [e]; exact h.of_same rfl

/-- Settles O17: the claims on the axes are kept met by each command's effect. -/
theorem placementFollowsItsMoves : Obligations.PlacementFollowsItsMoves := by
  intro s t sound hstep
  rw [State.placementSound_iff] at sound ⊢
  exact State.follows_kept.step sound hstep

end Sys2Proof.Machine

namespace Sys2Proof.Machine

/-! # Temperature sensing: readings and settings in range

What a window end, SENSOR_SET, THRESHOLDS and the resets leave in a sensor's unit; then every command. -/

/-! ### One sensor's unit (R102, R105, R106, R111) -/

/-- The filter takes in an eighth of the difference: its result lies between the old reading and the sample (R105). -/
theorem filtered_range {reading : Option Int} {lo hi v : Int} (old : ∀ r, reading = some r → lo ≤ r ∧ r ≤ hi)
    (new : lo ≤ v ∧ v ≤ hi) : lo ≤ filtered reading v ∧ filtered reading v ≤ hi := by
  cases reading with
  | none => exact new
  | some r =>
    have range := old r rfl
    simp only [filtered]
    omega

theorem windowTaken_eq (n : Nat) : windowTaken n = max 10 (min n 250) := by
  unfold windowTaken
  repeat' split
  all_goals omega

/-- The settings, the pending settings and the reading are left; a sample takes part only where it is good (R104). -/
theorem SensorUnit.Sound.sampled {u : SensorUnit} (h : u.Sound) (threshold v : Int) : (u.sampled threshold v).Sound := by
  by_cases good : -160 ≤ v ∧ v ≤ 600
  · rw [u.sampled_of_good threshold good]
    exact
      { settings := h.settings
        pend := h.pend
        reading := by
          rintro _ ⟨⟩
          exact filtered_range h.reading good
        high := fun _ => rfl }
  · rw [u.sampled_of_bad threshold (by omega)]
    exact { settings := h.settings, pend := h.pend, reading := h.reading, high := h.high }

/-- Pending settings come into force as they were taken (R103). -/
theorem SensorUnit.Sound.nextWindow {u : SensorUnit} (h : u.Sound) : u.nextWindow.Sound := by
  unfold SensorUnit.nextWindow
  split
  · rename_i p pend
    exact { settings := h.pend p pend, pend := nofun, reading := h.reading, high := h.high }
  · exact h

theorem SensorUnit.Sound.withPending {u : SensorUnit} (h : u.Sound) {p : SensorSettings} (taken : p.Sound) :
    SensorUnit.Sound { u with pend := some p } where
  settings := h.settings
  pend := by
    rintro _ ⟨⟩
    exact taken
  reading := h.reading
  high := h.high

theorem defaultSettings_sound (x : Sensor) : SensorSettings.Sound ⟨50, defaultIndex x, defaultTrip x⟩ := by
  cases x <;> exact ⟨by decide, by decide, by decide⟩

/-- With its comparator LOW and the default settings a sensor may hold any reading in range (R102, R113). -/
theorem powerOnSensor_sound (x : Sensor) {raw reading : Option Int} (range : ∀ r, reading = some r → -160 ≤ r ∧ r ≤ 600) :
    SensorUnit.Sound { powerOnSensor x with raw := raw, reading := reading } where
  settings := defaultSettings_sound x
  pend := nofun
  reading := range
  high := nofun

/-! ### The four sensors and the criteria table -/

theorem defaultCriteria_sound : defaultCriteria.length = 16 ∧ rising defaultCriteria = true := by decide

theorem powerOnSensors_get (x : Sensor) : powerOnSensors.units.get x = powerOnSensor x := by cases x <;> rfl

theorem Sensors.softReset_get (x : Sensors) (i : Sensor) :
    x.softReset.units.get i = (x.units.get i).softReset i := by
  cases i <;> rfl

theorem powerOnSensors_sound : powerOnSensors.Sound where
  units x := by
    rw [powerOnSensors_get]
    exact powerOnSensor_sound x nofun
  criteria := defaultCriteria_sound

theorem Sensors.Sound.softReset {x : Sensors} (h : x.Sound) : x.softReset.Sound where
  units i := by
    rw [Sensors.softReset_get]
    exact powerOnSensor_sound i (h.units i).reading
  criteria := defaultCriteria_sound

theorem State.sensorsSound_setSensor {s : State} (h : s.sensors.Sound) {x : Sensor} {u : SensorUnit} (hu : u.Sound) :
    (s.setSensor x u).sensors.Sound where
  units y := by
    change ((s.setSensor x u).sensor y).Sound
    by_cases own : y = x
    · rw [own, State.sensor_setSensor_same]
      exact hu
    · rw [State.sensor_setSensor_ne _ _ own]
      exact h.units y
  criteria := h.criteria

/-- Whatever ripples out leaves the sensors. -/
theorem State.Ripple.sensorsSound {s t : State} (r : s.Ripple t) (h : s.sensors.Sound) : t.sensors.Sound :=
  r.sensors ▸ h

theorem State.Near.sensorsSound {s t : State} (n : s.Near t) (h : s.sensors.Sound) : t.sensors.Sound :=
  n.sensors ▸ h

/-! ### The commands that reach the sensors -/

/-- A window end leaves its own sensor sampled and in its next window, and the others as they were (R103, R104). -/
theorem State.sensorsSound_windowEnd {s : State} (h : s.sensors.Sound) (x : Sensor) (v : Int) :
    (s.windowEnd x v).sensors.Sound where
  units y := by
    have kept := s.windowEnd_kept x v
    change ((s.windowEnd x v).sensor y).Sound
    by_cases own : y = x
    · rw [own, kept.own]
      exact ((h.units x).sampled _ v).nextWindow
    · rw [kept.others y own]
      exact h.units y
  criteria := (s.windowEnd_kept x v).criteria.symm ▸ h.criteria

theorem sensorSetBody_sound {s : State} (h : s.sensors.Sound) (p : List Word) :
    (sensorSetBody p s).1.sensors.Sound := by
  refine fieldsThen_keeps (P := fun t => t.sensors.Sound) h fun (x, window, index, trip) fields => ?_
  obtain ⟨index_le, trip_le⟩ := sensorSetFields_range fields
  have window_range : 10 ≤ windowTaken window ∧ windowTaken window ≤ 250 := by
    rw [windowTaken_eq]
    omega
  exact State.sensorsSound_setSensor h ((h.units x).withPending ⟨window_range, index_le, trip_le⟩)

theorem thresholdsBody_sound {s : State} (h : s.sensors.Sound) (p : List Word) :
    (thresholdsBody p s).1.sensors.Sound :=
  fieldsThen_keeps (P := fun t => t.sensors.Sound) h fun _ fields =>
    { units := h.units, criteria := thresholdsFields_sound fields }

/-- SOFT_RESET keeps the readings alone (R113). -/
theorem State.sensorsSound_softReset {s : State} (h : s.sensors.Sound) : s.softReset.sensors.Sound := by
  rw [State.softReset_blocks]
  exact h.softReset

/-- A fan update reads the sensors and leaves them (R132). -/
theorem State.fanUpdate_sensors (s : State) : s.fanUpdate.sensors = s.sensors :=
  State.fanUpdate_keeps (P := fun t => t.sensors = s.sensors) (R := fun t => t.sensors = s.sensors) (fun _ h => h)
    (fun _ x h => State.judgeFan_keeps (P := fun t => t.sensors = s.sensors) (fun _ _ _ h => h)
      (fun t y h => (t.ripple_makePending y).sensors.trans h) x h)
    (fun _ h => h) (fun _ _ h => h) rfl

/-! ### Every command -/

/-- Command by command: the window end, SENSOR_SET, THRESHOLDS and the resets; the rest leave the sensors. -/
theorem State.sensorsSound_kept : State.Kept fun s => s.sensors.Sound where
  weaken _ h := h
  queue _ _ h := h
  ended _ _ _ _ h := h
  holding _ _ h := h
  powerOn _ _ _ := powerOnSensors_sound
  checkEnds s passed h := by obtain ⟨_, _, r⟩ := s.checkEnds_effect passed; exact r.sensorsSound h
  frameStart s parity z h := by obtain ⟨_, _, _, _, _, _, _, e⟩ := s.inputFrameStart_frame parity z; rw [e]; exact h
  activeLine s xs h := by obtain ⟨_, _, e⟩ := s.activeLine_frame xs; rw [e]; exact h
  blankingSlot s words h := by obtain ⟨_, _, n⟩ := s.blankingSlot_frame words; exact n.sensorsSound h
  linkLoss s h := by obtain ⟨_, _, _, r⟩ := s.linkLoss_effect; exact r.sensorsSound h
  sendLine s h := by obtain ⟨_, e⟩ := s.sendLine_frame; rw [e]; exact h
  endFrame s h := by obtain ⟨_, _, e⟩ := s.endFrame_frame; rw [e]; exact h
  send s h := by obtain ⟨_, _, e⟩ := s.send_frame; rw [e]; exact h
  silent _ h := h
  fanUpdate s h := by rw [s.fanUpdate_sensors]; exact h
  tachPulse _ _ h := h
  windowEnd _ x sample h := State.sensorsSound_windowEnd h x sample
  stepAxis s a h := (s.ripple_stepAxis a).sensorsSound h
  pins _ _ _ h := h
  switchCloses s a h := (s.ripple_switchCloses a).sensorsSound h
  switchOpens s a h := (s.near_switchOpens a).sensorsSound h
  boundReached s a h := (s.ripple_boundReached a).sensorsSound h
  legTimeout s a h := (s.ripple_legTimeout a).sensorsSound h
  driverFault s a h := (s.ripple_enterFault a _).sensorsSound h
  endGeneration s h := by obtain ⟨_, _, _, n⟩ := s.endGeneration_effect; exact n.sensorsSound h
  softReset _ h := State.sensorsSound_softReset h
  stop s p h := (stopBody_effect p s).sensorsSound h
  lock s p h := by obtain ⟨_, n⟩ := lockBody_effect p s; exact n.sensorsSound h
  unlock s p h := by obtain ⟨_, n⟩ := unlockBody_effect p s; exact n.sensorsSound h
  clear s p h := by obtain ⟨_, e⟩ := clearBody_frame p s; rw [e]; exact h
  lower s p h := by obtain ⟨_, r⟩ := lowerBody_effect p s; exact r.sensorsSound h
  eventAck s p h := by obtain ⟨_, e⟩ := eventAckBody_frame p s; rw [e]; exact h
  move s p h := (moveBody_effect p s).sensorsSound h
  hold s p h := (holdBody_effect p s).sensorsSound h
  resume s p h := (resumeBody_effect p s).sensorsSound h
  returnMove s p h := (returnBody_effect p s).sensorsSound h
  home s p h := (homeBody_effect p s).sensorsSound h
  place s p h := (placeBody_effect p s).sensorsSound h
  placeCancel s p h := by obtain ⟨_, e⟩ := placeCancelBody_frame p s; rw [e]; exact h
  install s p h := by obtain ⟨_, e⟩ := installBody_frame p s; rw [e]; exact h
  pictureMode s p h := by obtain ⟨_, e⟩ := pictureModeBody_frame p s; rw [e]; exact h
  tableOpen s p h := by obtain ⟨_, e⟩ := tableOpenBody_frame p s; rw [e]; exact h
  tableRun s p h := by obtain ⟨_, e⟩ := tableRunBody_frame p s; rw [e]; exact h
  tableCommit s p h := by obtain ⟨_, e⟩ := tableCommitBody_frame p s; rw [e]; exact h
  corners s p h := by obtain ⟨_, _, e⟩ := cornersBody_frame p s; rw [e]; exact h
  lensCal s p h := by obtain ⟨_, e⟩ := lensCalBody_frame p s; rw [e]; exact h
  profile s p h := by obtain ⟨_, e⟩ := profileBody_frame p s; rw [e]; exact h
  focusTable s p h := by obtain ⟨_, e⟩ := focusTableBody_frame p s; rw [e]; exact h
  focusUpkeep s p h := by obtain ⟨_, e⟩ := focusUpkeepBody_frame p s; rw [e]; exact h
  sensorSet _ p h := sensorSetBody_sound h p
  thresholds _ p h := thresholdsBody_sound h p
  brightness s p h := by obtain ⟨_, e⟩ := brightnessBody_frame p s; rw [e]; exact h
  fanCurve s p h := by obtain ⟨_, e⟩ := fanCurveBody_frame p s; rw [e]; exact h
  fanLimits s p h := by obtain ⟨_, e⟩ := fanLimitsBody_frame p s; rw [e]; exact h
  quiet s p h := by obtain ⟨_, e⟩ := quietBody_frame p s; rw [e]; exact h
  levels s p h := by obtain ⟨_, r⟩ := levelsBody_effect p s; exact r.sensorsSound h
  actions s p h := by obtain ⟨_, r⟩ := actionsBody_effect p s; exact r.sensorsSound h
  eventMask s p h := by obtain ⟨_, e⟩ := eventMaskBody_frame p s; rw [e]; exact h
  queryCounters s p h := by obtain ⟨_, _, _, e⟩ := countersBody_frame p s; rw [e]; exact h
  queryCause s p h := by obtain ⟨_, e⟩ := causeBody_frame p s; rw [e]; exact h

/-- Settles O18: the promise of the sensors is kept by each command's effect. -/
theorem readingsStayInRange : Obligations.ReadingsStayInRange :=
  fun _ _ sound hstep => State.sensorsSound_kept.step sound hstep

end Sys2Proof.Machine

namespace Sys2Proof.Machine

/-! ### BRIGHTNESS, QUIET, THRESHOLDS, SENSOR_SET, FAN_CURVE and FAN_LIMITS (R110, R111, R117, R143 to R145) -/

/-! #### Payloads that are read back -/

theorem zoneOf_zoneCode (z : Zone) : zoneOf (BitVec.ofNat 16 (zoneCode z)) = some z := by cases z <;> rfl

/-- The rest of a payload is read where the field is within its range. -/
theorem upTo_bind {α : Type} (top : Nat) (w : Word) (k : Nat → Option α) :
    (upTo top w).bind k = if w.toNat ≤ top then k w.toNat else none := by
  unfold upTo
  split <;> rfl

/-- THRESHOLDS takes sixteen rising temperatures in range, and no others of them (R110). -/
theorem thresholdsFields_words {ts : List Int} (sixteen : ts.length = 16) (range : ∀ x ∈ ts, -160 ≤ x ∧ x ≤ 600) :
    thresholdsFields (ts.map (BitVec.ofInt 16)) = if rising ts = true then some ts else none := by
  have fields : allSome ((ts.map (BitVec.ofInt 16)).map (signedWithin (-160) 600)) = some ts := by
    rw [allSome_eq, List.map_map]
    exact List.map_congr_left fun x hx => signedWithin_ofInt (range x hx) (by decide) (by decide)
  rw [thresholdsFields, fields]
  simp [sixteen]

/-- SENSOR_SET takes an index and a trip temperature in range, and any window (R111). -/
theorem sensorSetFields_words (x : Sensor) {window index trip : Word} :
    sensorSetFields [sensorWord x, window, index, trip] =
      if index.toNat ≤ 15 ∧ trip.toNat ≤ 600 then some (x, window.toNat, index.toNat, trip.toNat) else none := by
  simp [sensorSetFields, upTo_bind, ite_and]

/-- Breakpoints whose values lie in a range of signed words are read back. -/
theorem breakpointsOf_signedWords {lo hi : Int} (hlo : -32768 ≤ lo) (hhi : hi ≤ 32767) {t : List Breakpoint}
    (range : ∀ b ∈ t, -160 ≤ b.t ∧ b.t ≤ 600 ∧ lo ≤ b.value ∧ b.value ≤ hi) :
    breakpointsOf (signedWithin lo hi) (t.flatMap fun b => [BitVec.ofInt 16 b.t, BitVec.ofInt 16 b.value]) = some t := by
  induction t with
  | nil => rfl
  | cons b t ih =>
    obtain ⟨⟨tlo, thi, value⟩, rest⟩ := List.forall_mem_cons.1 range
    simp [breakpointsOf, ih rest, signedWithin_ofInt ⟨tlo, thi⟩, signedWithin_ofInt value hlo hhi]

/-- FAN_CURVE takes six breakpoints in range with rising temperatures and values that never fall (R143). -/
theorem fanCurveFields_words (x : Fan) (o : Orientation) {t : List Breakpoint} (six : t.length = 6)
    (range : ∀ b ∈ t, -160 ≤ b.t ∧ b.t ≤ 600 ∧ 0 ≤ b.value ∧ b.value ≤ 1000) :
    fanCurveFields (fanWord x :: BitVec.ofNat 16 (orientationCode o)
        :: t.flatMap fun b => [BitVec.ofInt 16 b.t, BitVec.ofInt 16 b.value])
      = if rising (t.map (·.t)) = true ∧ nonFalling (t.map (·.value)) = true then some (x, o, t) else none := by
  simp [fanCurveFields, orientationOf_orientationCode, breakpointsOf_signedWords (by decide) (by decide) range, six]

/-- FAN_LIMITS takes a gain, a quiet cap and a stall speed in range (R144). -/
theorem fanLimitsFields_words (x : Fan) (i : Sensor) (z : Zone) {gain cap stall : Word} :
    fanLimitsFields [fanWord x, sensorWord i, BitVec.ofNat 16 (zoneCode z), gain, cap, stall] =
      if gain.toNat ≤ 1000 ∧ cap.toNat ≤ 1000 ∧ stall.toNat ≤ 20000 then
        some ⟨x, i, z, gain.toNat, cap.toNat, stall.toNat⟩ else none := by
  simp [fanLimitsFields, zoneOf_zoneCode, upTo_bind, ite_and]

/-! #### Payloads of another length -/

theorem oneField_of_length {α : Type} {f : Word → Option α} {p : List Word} (h : p.length ≠ 1) : oneField f p = none := by
  unfold oneField
  split
  · exact absurd rfl h
  · rfl

theorem thresholdsFields_of_length {p : List Word} (h : p.length ≠ 16) : thresholdsFields p = none := by
  rw [Option.eq_none_iff_forall_ne_some]
  intro ts hts
  simp only [thresholdsFields, Option.bind_eq_bind, Option.bind_eq_some_iff] at hts
  obtain ⟨l, fields, hts⟩ := hts
  have length : p.length = l.length := by simpa using congrArg List.length (allSome_eq.1 fields)
  rw [if_neg fun ok => h (length.trans ok.1)] at hts
  cases hts

theorem sensorSetFields_of_length {p : List Word} (h : p.length ≠ 4) : sensorSetFields p = none := by
  unfold sensorSetFields
  split
  · exact absurd rfl h
  · rfl

theorem fanCurveFields_of_length {p : List Word} (h : p.length ≠ 14) : fanCurveFields p = none := by
  rw [Option.eq_none_iff_forall_ne_some]
  intro fields taken
  unfold fanCurveFields at taken
  split at taken
  · simp only [Option.bind_eq_bind, Option.bind_eq_some_iff] at taken
    obtain ⟨_, _, _, _, table, breakpoints, taken⟩ := taken
    have length := breakpointsOf_length breakpoints
    rw [if_neg fun ok => h (by simp only [List.length_cons]; omega)] at taken
    cases taken
  · cases taken

theorem fanLimitsFields_of_length {p : List Word} (h : p.length ≠ 6) : fanLimitsFields p = none := by
  unfold fanLimitsFields
  split
  · exact absurd rfl h
  · rfl

/-! #### The messages carried out -/

section Executed

variable {φ : Type} {c : Instr} {s t : State} {e : Envelope} {kind : Byte} {p : List Word} {o : MsgOutcome}
  {fieldsOf : List Word → Option φ} {k : φ → State → State × MsgOutcome}

/-- Taken in every part state, a payload that gives its fields is carried out. -/
theorem exec_of_fields (arm : exec c s = runMessage s (ofKind kind) fun p => fieldsThen (fieldsOf p) k)
    (h : s.Executes e kind p) {x : φ} (fields : fieldsOf p = some x) (hk : k x s = (t, o)) :
    exec c s = .next (t.ended e o) :=
  exec_eq_ended arm h (by simp only [fieldsThen, fields, hk])

/-- One that gives none is refused. -/
theorem exec_of_noFields (arm : exec c s = runMessage s (ofKind kind) fun p => fieldsThen (fieldsOf p) k)
    (h : s.Executes e kind p) (fields : fieldsOf p = none) : exec c s = .next (s.ended e (.refused .badField)) :=
  exec_eq_ended arm h (by simp only [fieldsThen, fields])

end Executed

/-- CLAMPED carries the window as taken, and stands only where the rule moved it (R111). -/
theorem windowTaken_outcome (n : Nat) :
    (if windowTaken n = n then MsgOutcome.done else .clamped (natWord (windowTaken n)))
      = if n < 10 then .clamped 10#16 else if 250 < n then .clamped 250#16 else .done := by
  by_cases low : n < 10
  · simp [windowTaken, low, natWord]
    omega
  · by_cases high : 250 < n
    · simp [windowTaken, low, high, natWord]
      omega
    · simp [windowTaken, low, high]

/-- Settles O47: the fields of each payload, then what the body stores. -/
theorem thermalSettingsAreStored : Obligations.ThermalSettingsAreStored := by
  intro s e p
  refine ⟨?_, ?_, ?_, ?_, ?_, ?_, ?_⟩
  · rintro w rfl executes
    refine exec_of_fields rfl executes (x := w) rfl (Prod.ext rfl ?_)
    by_cases above : 1000 < w.toNat
    · simp [above, Nat.min_eq_right above.le, natWord]
    · simp [above]
  · rintro w rfl executes
    refine ⟨?_, fun above => exec_of_noFields rfl executes (yesNo_of_lt above)⟩
    rintro on rfl
    exact exec_of_fields rfl executes (yesNo_flagWord on) rfl
  · rintro ts sixteen range rfl executes
    have fields := thresholdsFields_words sixteen range
    exact ⟨fun rises => exec_of_fields rfl executes (fields.trans (if_pos rises)) rfl,
      fun falls => exec_of_noFields rfl executes (fields.trans (if_neg (by simp [falls])))⟩
  · rintro x window index trip rfl executes
    have fields := sensorSetFields_words x (window := window) (index := index) (trip := trip)
    refine ⟨fun hi ht => exec_of_fields rfl executes (fields.trans (if_pos ⟨hi, ht⟩)) (Prod.ext ?_ ?_), fun bad =>
      exec_of_noFields rfl executes (fields.trans (if_neg (by omega)))⟩
    · simp only [windowTaken_eq]
    · exact windowTaken_outcome window.toNat
  · rintro x o t six range rfl executes
    have fields := fanCurveFields_words x o six range
    refine ⟨fun ok => exec_of_fields rfl executes (fields.trans (if_pos ok)) ?_, fun bad =>
      exec_of_noFields rfl executes (fields.trans (if_neg bad))⟩
    cases o <;> rfl
  · rintro x i z gain cap stall rfl executes
    have fields := fanLimitsFields_words x i z (gain := gain) (cap := cap) (stall := stall)
    refine ⟨fun hg hc hs => exec_of_fields rfl executes (fields.trans (if_pos ⟨hg, hc, hs⟩)) (Prod.ext rfl ?_),
      fun bad => exec_of_noFields rfl executes (fields.trans (if_neg (by omega)))⟩
    by_cases low : cap.toNat < 200
    · simp [low, Nat.max_eq_right low.le, natWord]
    · simp [low]
  · intro c kind n row length executes
    simp only [List.mem_cons, Prod.mk.injEq, List.not_mem_nil, or_false] at row
    rcases row with ⟨rfl, rfl, rfl⟩ | ⟨rfl, rfl, rfl⟩ | ⟨rfl, rfl, rfl⟩ | ⟨rfl, rfl, rfl⟩ | ⟨rfl, rfl, rfl⟩ |
      ⟨rfl, rfl, rfl⟩
    · exact exec_of_noFields rfl executes (oneField_of_length length)
    · exact exec_of_noFields rfl executes (oneField_of_length length)
    · exact exec_of_noFields rfl executes (thresholdsFields_of_length length)
    · exact exec_of_noFields rfl executes (sensorSetFields_of_length length)
    · exact exec_of_noFields rfl executes (fanCurveFields_of_length length)
    · exact exec_of_noFields rfl executes (fanLimitsFields_of_length length)

end Sys2Proof.Machine

namespace Sys2Proof.Machine

/-! # Light drive and heat accounting

The heat of a frame and of a period, what a delivery leaves of the drive level, and every command. -/

/-! ### The light unit by itself (R117, R120, R123, R125, R126) -/

/-- Lens and dump share what the laser gives, whatever the light fraction (R123). -/
theorem heatOf_split {d l top : Nat} (drive : d ≤ top) (fraction : l ≤ 1000) : (heatOf d l).Split top where
  total := Nat.add_sub_of_le <| Nat.div_le_of_le_mul <| by
    rw [Nat.mul_comm 1000]
    exact Nat.mul_le_mul_left d fraction
  bound := drive

theorem Heat.Split.plus {p q : Heat} {m n : Nat} (hp : p.Split m) (hq : q.Split n) : (p.plus q).Split (m + n) where
  total := by
    change p.lens + q.lens + (p.dump + q.dump) = p.laser + q.laser
    rw [← hp.total, ← hq.total]
    omega
  bound := Nat.add_le_add hp.bound hq.bound

/-- No zone of a period of n frames averages above full drive (R125). -/
theorem Heat.Split.average {q : Heat} {n : Nat} (h : q.Split (1000 * n)) :
    q.laser / n ≤ 1000 ∧ q.lens / n ≤ 1000 ∧ q.dump / n ≤ 1000 := by
  obtain ⟨total, bound⟩ := h
  rw [Nat.mul_comm] at bound
  exact ⟨Nat.div_le_of_le_mul bound, Nat.div_le_of_le_mul (by omega), Nat.div_le_of_le_mul (by omega)⟩

theorem Light.Sound.withDrive {x : Light} (h : x.Sound) {d : Nat} (hd : d ≤ x.limit) : Light.Sound { x with d := d } :=
  { h with drive := hd }

/-- A delivery cuts D to the limit (R120). -/
theorem Light.Sound.deliver {x : Light} (h : x.Sound) {limit : Nat} (range : limit ≤ 1000) : (x.deliver limit).Sound :=
  { h with limit := range, drive := Nat.min_le_right _ _ }

/-- The frame's heat enters the split and the period's sums (R123, R125). -/
theorem Light.Sound.frameEnded {x : Light} (h : x.Sound) {l : Nat} (fraction : l ≤ 1000) : (x.frameEnded l).Sound :=
  have heat : (heatOf x.d l).Split 1000 := heatOf_split (h.drive.trans h.limit) fraction
  { h with split := heat, sums := h.sums.plus heat }

/-- A period without frames averages the standing drive level, one with frames their heat (R125, R126). -/
theorem Light.Sound.closePeriod {x : Light} (h : x.Sound) : x.closePeriod.Sound :=
  { h with
    sums := ⟨rfl, Nat.zero_le _⟩
    averages := by
      have drive : x.d ≤ 1000 := h.drive.trans h.limit
      unfold Light.closePeriod
      by_cases none : x.accN = 0
      · simp [none, drive]
      · simp only [none, if_false]
        exact h.sums.average }

theorem resetLight_sound : resetLight.Sound where
  brightness := Nat.zero_le _
  limit := le_rfl
  drive := Nat.zero_le _
  split := ⟨rfl, Nat.zero_le _⟩
  sums := ⟨rfl, Nat.zero_le _⟩
  averages := ⟨Nat.zero_le _, Nat.zero_le _, Nat.zero_le _⟩

/-! ### The light unit among the others -/

/-- The actions of every level are in range, the fixed ones of levels 0 and 4 too (R151). -/
theorem ActionTable.Sound.actions_inRange {t : ActionTable} (h : t.Sound) (c : Nat) : (t.actions c).inRange :=
  match c with
  | 0 => ⟨le_rfl, Nat.zero_le _⟩
  | 1 => h.one
  | 2 => h.two
  | 3 => h.three
  | _ + 4 => ⟨Nat.zero_le _, le_rfl⟩

theorem defaultActions_sound : defaultActions.Sound where
  one := ⟨by decide, by decide⟩
  two := ⟨by decide, by decide⟩
  three := ⟨by decide, by decide⟩
  lower := by decide
  upper := by decide

/-- The light unit's promise, and the action table's, from which its limits are delivered. -/
structure State.Lit (s : State) : Prop where
  table : s.prot.table.Sound
  light : s.light.Sound

theorem State.Lit.of_same {s t : State} (h : s.Lit) (light : t.light = s.light := by rfl)
    (table : t.prot.table = s.prot.table := by rfl) : t.Lit :=
  ⟨table ▸ h.table, light ▸ h.light⟩

theorem State.Lit.withLight {s : State} (h : s.Lit) {x : Light} (hx : x.Sound) : State.Lit { s with light := x } :=
  ⟨h.table, hx⟩

/-- Whatever ripples out reaches the light unit by deliveries alone (R120, R153). -/
theorem State.Ripple.lit {s t : State} (r : s.Ripple t) (h : s.Lit) : t.Lit := by
  obtain ⟨levels, light⟩ := r.light
  refine ⟨r.actions ▸ h.table, light ▸ ?_⟩
  exact foldl_keeps (P := Light.Sound) (fun _ c hx => hx.deliver (h.table.actions_inRange c).1) levels h.light

theorem State.Near.lit {s t : State} (n : s.Near t) (h : s.Lit) : t.Lit := n.ripple.lit h

theorem State.Lit.deliver {s : State} (h : s.Lit) : s.deliver.Lit := s.ripple_deliver.lit h

/-! ### The commands that reach the light unit -/

theorem State.powerOnValues_lit (s : State) (cause : RestartCause) (hold : Hold) : (s.powerOnValues cause hold).Lit :=
  ⟨defaultActions_sound, resetLight_sound⟩

theorem State.softReset_lit (s : State) : s.softReset.Lit := by
  have accepted : s.softAccepted.Lit := ⟨defaultActions_sound, resetLight_sound⟩
  rw [State.softReset_eq]
  split
  · exact accepted
  · exact (State.ripple_makePending _ _).lit ((State.near_raise _ _).lit accepted)

/-- The frame start's drive step ends within the limit (R118, R119). -/
theorem State.Lit.inputFrameStart {s : State} (h : s.Lit) (parity : Parity) (z : Size) :
    (s.inputFrameStart parity z).Lit := by
  obtain ⟨_, _, _, _, _, e⟩ := s.frameDecided_eq parity z
  have decided : (s.frameDecided parity z).Lit := by rw [e]; exact h.of_same
  exact ⟨decided.table, decided.light.withDrive (steppedDrive_le (State.driveTarget_le _))⟩

theorem State.Lit.linkLoss {s : State} (h : s.Lit) : s.linkLoss.Lit := by
  unfold State.linkLoss
  simp only
  split
  · exact h
  · refine (State.ripple_makePending _ _).lit ((State.near_raise _ _).lit ?_)
    exact ⟨h.table, h.light.withDrive (Nat.zero_le _)⟩

/-- The period closes, and a stall may be delivered (R125, R132). -/
theorem State.Lit.fanUpdate {s : State} (h : s.Lit) : s.fanUpdate.Lit :=
  State.fanUpdate_keeps (P := State.Lit) (R := State.Lit) (fun _ h => ⟨h.table, h.light.closePeriod⟩)
    (fun _ x h => State.judgeFan_keeps (fun _ _ _ h => h.of_same) (fun t y h => (t.ripple_makePending y).lit h) x h)
    (fun _ h => h.of_same) (fun _ _ h => h.of_same) h

theorem State.Lit.windowEnd {s : State} (h : s.Lit) (x : Sensor) (sample : Int) : (s.windowEnd x sample).Lit :=
  State.windowEnd_keeps (fun _ h => h.of_same) (fun t y h => (t.ripple_makePending y).lit h) (fun _ _ h => h.of_same)
    (fun t _ h => t.ripple_startUpkeep.lit h) (fun _ h => h.of_same) h

theorem State.Lit.lowerTo {s : State} (h : s.Lit) (target : Nat) : (s.lowerTo target).Lit := by
  unfold State.lowerTo
  simp only
  split
  · exact h
  · exact State.Lit.deliver ((State.near_raise _ _).lit h.of_same)

theorem lowerBody_lit {s : State} (h : s.Lit) (p : List Word) : (lowerBody p s).1.Lit := by
  refine fieldsThen_keeps h fun target _ => ?_
  repeat' split
  · exact h
  · exact h
  · exact h.lowerTo _

theorem clearBody_lit {s : State} (h : s.Lit) (p : List Word) : (clearBody p s).1.Lit := by
  refine fieldsThen_keeps h fun x _ => ?_
  simp only [State.clearSource]
  split
  · exact h
  · exact h.of_same

theorem levelsBody_lit {s : State} (h : s.Lit) (p : List Word) : (levelsBody p s).1.Lit :=
  fieldsThen_keeps h fun _ _ => (State.ripple_accept _).lit h.of_same

/-- A table that ACTIONS takes is in range (R152). -/
theorem actionsBody_lit {s : State} (h : s.Lit) (p : List Word) : (actionsBody p s).1.Lit := by
  refine fieldsThen_keeps h fun table fields => ?_
  have taken : State.Lit { s with prot := { s.prot with table := table } } := ⟨actionsFields_sound fields, h.light⟩
  simp only
  split
  · exact taken.deliver
  · exact taken

theorem brightnessBody_lit {s : State} (h : s.Lit) (p : List Word) : (brightnessBody p s).1.Lit :=
  fieldsThen_keeps h fun _ _ => h.withLight { h.light with brightness := Nat.min_le_right _ _ }

/-! ### The output frame's end (R21, R123) -/

/-- What the light unit's promise rests on at an output frame's end: the frame in flight has no more light than its
lines gave. -/
structure State.LitFrame (s : State) : Prop where
  lit : s.Lit
  frame : ∀ f, s.picture.frame = some f → f.Sound s.picture.mutes

theorem State.LitFrame.sendLine {s : State} (h : s.LitFrame) : s.sendLine.LitFrame := by
  cases hf : s.picture.frame with
  | none => rwa [State.sendLine_of_none hf]
  | some f =>
    by_cases hr : f.nextRow < Config.panelRows
    · rw [State.sendLine_eq hf hr]
      refine ⟨h.lit.of_same, ?_⟩
      rintro _ ⟨⟩
      exact (h.frame f hf).sent hr _ _
    · rwa [State.sendLine_of_all_sent hf hr]

theorem State.LitFrame.sendLines {s : State} (h : s.LitFrame) (n : Nat) : (State.sendLines n s).LitFrame := by
  induction n generalizing s with
  | zero => exact h
  | succ n ih => exact ih h.sendLine

/-- The light fraction of a frame is at most full (R21). -/
theorem OutFrame.Sound.lightFraction_le {f : OutFrame} {m : Mutes} (h : f.Sound m) : lightFraction f.sum ≤ 1000 :=
  Machine.lightFraction_le (h.light.trans (Nat.mul_le_mul_left _ h.rows))

theorem State.LitFrame.closeFrame {s : State} (h : s.LitFrame) : s.closeFrame.Lit := by
  cases hf : s.picture.frame with
  | none =>
    rw [State.closeFrame_of_none hf]
    exact h.lit
  | some f =>
    rw [State.closeFrame_eq hf]
    exact ⟨h.lit.table, h.lit.light.frameEnded (h.frame f hf).lightFraction_le⟩

theorem State.LitFrame.endFrame {s : State} (h : s.LitFrame) : s.endFrame.Lit := by
  unfold State.endFrame
  split
  · exact (h.sendLines _).closeFrame
  · exact h.lit

/-! ### Every command -/

/-- Command by command: those that reach the light unit or the action table; the rest ripple, or leave both. -/
theorem State.lit_kept : State.Kept State.LitFrame State.Lit where
  weaken _ h := h.lit
  queue _ _ h := ⟨h.lit.of_same, h.frame⟩
  ended _ _ _ _ h := h.of_same
  holding _ _ h := h.lit.of_same
  powerOn := State.powerOnValues_lit
  checkEnds s passed h := by obtain ⟨_, _, r⟩ := s.checkEnds_effect passed; exact r.lit h.lit.of_same
  frameStart _ parity z h := h.lit.inputFrameStart parity z
  activeLine s xs h := by obtain ⟨_, _, e⟩ := s.activeLine_frame xs; rw [e]; exact h.lit.of_same
  blankingSlot s words h := by obtain ⟨_, _, n⟩ := s.blankingSlot_frame words; exact n.lit h.lit.of_same
  linkLoss _ h := h.lit.linkLoss
  sendLine _ h := h.sendLine.lit
  endFrame _ h := h.endFrame
  send s h := by obtain ⟨_, _, e⟩ := s.send_frame; rw [e]; exact h.lit.of_same
  silent _ h := h.lit.of_same
  fanUpdate _ h := h.lit.fanUpdate
  tachPulse _ _ h := h.lit.of_same
  windowEnd _ x sample h := h.lit.windowEnd x sample
  stepAxis s a h := (s.ripple_stepAxis a).lit h.lit
  pins _ _ _ h := ⟨h.lit.of_same, h.frame⟩
  switchCloses s a h := (s.ripple_switchCloses a).lit h.lit
  switchOpens s a h := (s.near_switchOpens a).lit h.lit
  boundReached s a h := (s.ripple_boundReached a).lit h.lit
  legTimeout s a h := (s.ripple_legTimeout a).lit h.lit
  driverFault s a h := (s.ripple_enterFault a _).lit h.lit
  endGeneration s h := by obtain ⟨_, _, _, n⟩ := s.endGeneration_effect; exact n.lit h.lit.of_same
  softReset s _ := s.softReset_lit
  stop s p h := (stopBody_effect p s).lit h.lit
  lock s p h := by obtain ⟨_, n⟩ := lockBody_effect p s; exact n.lit h.lit.of_same
  unlock s p h := by obtain ⟨_, n⟩ := unlockBody_effect p s; exact n.lit h.lit.of_same
  clear _ p h := clearBody_lit h.lit p
  lower _ p h := lowerBody_lit h.lit p
  eventAck s p h := by obtain ⟨_, e⟩ := eventAckBody_frame p s; rw [e]; exact h.lit.of_same
  move s p h := (moveBody_effect p s).lit h.lit
  hold s p h := (holdBody_effect p s).lit h.lit
  resume s p h := (resumeBody_effect p s).lit h.lit
  returnMove s p h := (returnBody_effect p s).lit h.lit
  home s p h := (homeBody_effect p s).lit h.lit
  place s p h := (placeBody_effect p s).lit h.lit
  placeCancel s p h := by obtain ⟨_, e⟩ := placeCancelBody_frame p s; rw [e]; exact h.lit.of_same
  install s p h := by obtain ⟨_, e⟩ := installBody_frame p s; rw [e]; exact h.lit.of_same
  pictureMode s p h := by obtain ⟨_, e⟩ := pictureModeBody_frame p s; rw [e]; exact h.lit.of_same
  tableOpen s p h := by obtain ⟨_, e⟩ := tableOpenBody_frame p s; rw [e]; exact h.lit.of_same
  tableRun s p h := by obtain ⟨_, e⟩ := tableRunBody_frame p s; rw [e]; exact h.lit.of_same
  tableCommit s p h := by obtain ⟨_, e⟩ := tableCommitBody_frame p s; rw [e]; exact h.lit.of_same
  corners s p h := by obtain ⟨_, _, e⟩ := cornersBody_frame p s; rw [e]; exact h.lit.of_same
  lensCal s p h := by obtain ⟨_, e⟩ := lensCalBody_frame p s; rw [e]; exact h.lit.of_same
  profile s p h := by obtain ⟨_, e⟩ := profileBody_frame p s; rw [e]; exact h.lit.of_same
  focusTable s p h := by obtain ⟨_, e⟩ := focusTableBody_frame p s; rw [e]; exact h.lit.of_same
  focusUpkeep s p h := by obtain ⟨_, e⟩ := focusUpkeepBody_frame p s; rw [e]; exact h.lit.of_same
  sensorSet s p h := by obtain ⟨_, e⟩ := sensorSetBody_frame p s; rw [e]; exact h.lit.of_same
  thresholds s p h := by obtain ⟨_, e⟩ := thresholdsBody_frame p s; rw [e]; exact h.lit.of_same
  brightness _ p h := brightnessBody_lit h.lit p
  fanCurve s p h := by obtain ⟨_, e⟩ := fanCurveBody_frame p s; rw [e]; exact h.lit.of_same
  fanLimits s p h := by obtain ⟨_, e⟩ := fanLimitsBody_frame p s; rw [e]; exact h.lit.of_same
  quiet s p h := by obtain ⟨_, e⟩ := quietBody_frame p s; rw [e]; exact h.lit.of_same
  levels _ p h := levelsBody_lit h.lit p
  actions _ p h := actionsBody_lit h.lit p
  eventMask s p h := by obtain ⟨_, e⟩ := eventMaskBody_frame p s; rw [e]; exact h.lit.of_same
  queryCounters s p h := by obtain ⟨_, _, _, e⟩ := countersBody_frame p s; rw [e]; exact h.lit.of_same
  queryCause s p h := by obtain ⟨_, e⟩ := causeBody_frame p s; rw [e]; exact h.lit.of_same

/-- Settles O13: the light unit's promise is kept by each command's effect, the frame in flight giving its fraction. -/
theorem driveStaysUnderTheLimit : Obligations.DriveStaysUnderTheLimit :=
  fun _ _ table picture light hstep => (State.lit_kept.step ⟨⟨table, light⟩, picture.frame⟩ hstep).light

end Sys2Proof.Machine

namespace Sys2Proof.Machine

/-! # The fan update

The stall judgement and the move of one fan by the tables of R140 and R137; then what the update leaves of each fan,
of the light unit and of the rest. -/

/-! ### One fan's judgement and move (R137 to R140) -/

/-- `v` is the same fan as `u` as far as its record and its tachometer go. -/
structure FanUnit.SameMeasure (u v : FanUnit) : Prop where
  record : v.record = u.record
  history : v.history = u.history
  count : v.count = u.count
  speed : v.speed = u.speed

theorem FanUnit.SameMeasure.trans {u v w : FanUnit} (h : u.SameMeasure v) (g : v.SameMeasure w) : u.SameMeasure w :=
  ⟨g.record.trans h.record, g.history.trans h.history, g.count.trans h.count, g.speed.trans h.speed⟩

theorem FanUnit.Delivered.sameMeasure {u v : FanUnit} (h : u.Delivered v) : u.SameMeasure v :=
  ⟨h.record, h.history, h.count, h.speed⟩

theorem FanUnit.sameMeasure_judged (u : FanUnit) : u.SameMeasure u.judged := by
  unfold FanUnit.judged
  repeat' split
  all_goals exact ⟨rfl, rfl, rfl, rfl⟩

/-- The move leaves all but the state, the duty and the counts. -/
theorem FanUnit.moved_eq (u : FanUnit) (before demand floor : Nat) :
    ∃ state duty spin stallRun recovery, u.moved before demand floor =
      { u with state := state, duty := duty, spin := spin, stallRun := stallRun, recovery := recovery } := by
  unfold FanUnit.moved
  repeat' split
  all_goals exact ⟨_, _, _, _, _, rfl⟩

@[simp] theorem FanUnit.moved_lastDemand (u : FanUnit) (before demand floor : Nat) :
    (u.moved before demand floor).lastDemand = u.lastDemand := by
  obtain ⟨_, _, _, _, _, e⟩ := u.moved_eq before demand floor
  rw [e]

section Tables

variable {u : FanUnit}

theorem FanUnit.judged_of_stopped (h : u.state = .stopped) : u.judged = u := by simp [FanUnit.judged, h]

theorem FanUnit.judged_of_spinup (h : u.state = .spinup) : u.judged = u := by simp [FanUnit.judged, h]

theorem FanUnit.judged_of_running_fast (h : u.state = .running) (fast : u.record.stallSpeed ≤ u.speed) :
    u.judged = { u with stallRun := 0 } := by
  simp [FanUnit.judged, h, fast.not_gt]

theorem FanUnit.judged_of_running_slow (h : u.state = .running) (slow : u.speed < u.record.stallSpeed)
    (few : u.stallRun < 2) : u.judged = { u with stallRun := u.stallRun + 1 } := by
  simp [FanUnit.judged, h, slow, few.not_ge]

theorem FanUnit.judged_of_running_third (h : u.state = .running) (slow : u.speed < u.record.stallSpeed)
    (third : 2 ≤ u.stallRun) : u.judged = { u with state := .stalled, stallRun := u.stallRun + 1, recovery := 0 } := by
  simp [FanUnit.judged, h, slow, third]

theorem FanUnit.judged_of_stalled_slow (h : u.state = .stalled) (slow : u.speed < u.record.stallSpeed) :
    u.judged = { u with recovery := 0 } := by
  simp [FanUnit.judged, h, slow]

theorem FanUnit.judged_of_stalled_fast (h : u.state = .stalled) (fast : u.record.stallSpeed ≤ u.speed)
    (few : u.recovery < 2) : u.judged = { u with recovery := u.recovery + 1 } := by
  simp [FanUnit.judged, h, fast.not_gt, few.not_ge]

theorem FanUnit.judged_of_stalled_third (h : u.state = .stalled) (fast : u.record.stallSpeed ≤ u.speed)
    (third : 2 ≤ u.recovery) : u.judged = { u with state := .running, recovery := u.recovery + 1, stallRun := 0 } := by
  simp [FanUnit.judged, h, fast.not_gt, third]

/-- The rows of R140: the state and the count that each leaves. -/
theorem FanUnit.judged_rows (u : FanUnit) :
    (u.state = .running → u.record.stallSpeed ≤ u.speed → u.judged.state = .running ∧ u.judged.stallRun = 0)
      ∧ (u.state = .running → u.speed < u.record.stallSpeed → u.stallRun < 2 →
          u.judged.state = .running ∧ u.judged.stallRun = u.stallRun + 1)
      ∧ (u.state = .running → u.speed < u.record.stallSpeed → 2 ≤ u.stallRun →
          u.judged.state = .stalled ∧ u.judged.recovery = 0)
      ∧ (u.state = .stalled → u.speed < u.record.stallSpeed → u.judged.state = .stalled ∧ u.judged.recovery = 0)
      ∧ (u.state = .stalled → u.record.stallSpeed ≤ u.speed → u.recovery < 2 →
          u.judged.state = .stalled ∧ u.judged.recovery = u.recovery + 1)
      ∧ (u.state = .stalled → u.record.stallSpeed ≤ u.speed → 2 ≤ u.recovery →
          u.judged.state = .running ∧ u.judged.stallRun = 0) := by
  refine ⟨fun h fast => ?_, fun h slow few => ?_, fun h slow third => ?_, fun h slow => ?_, fun h fast few => ?_,
    fun h fast third => ?_⟩
  · rw [FanUnit.judged_of_running_fast h fast]; exact ⟨h, rfl⟩
  · rw [FanUnit.judged_of_running_slow h slow few]; exact ⟨h, rfl⟩
  · rw [FanUnit.judged_of_running_third h slow third]; exact ⟨rfl, rfl⟩
  · rw [FanUnit.judged_of_stalled_slow h slow]; exact ⟨h, rfl⟩
  · rw [FanUnit.judged_of_stalled_fast h fast few]; exact ⟨h, rfl⟩
  · rw [FanUnit.judged_of_stalled_third h fast third]; exact ⟨rfl, rfl⟩

/-- A fan is STALLED after the judgement where it turns so, and where it has not recovered. -/
theorem FanUnit.judged_stalled_iff : u.judged.state = .stalled ↔
    (u.state = .running ∧ u.speed < u.record.stallSpeed ∧ 2 ≤ u.stallRun)
      ∨ (u.state = .stalled ∧ (u.speed < u.record.stallSpeed ∨ u.recovery < 2)) := by
  cases h : u.state with
  | stopped => simp [FanUnit.judged_of_stopped h, h]
  | spinup => simp [FanUnit.judged_of_spinup h, h]
  | running =>
    rcases lt_or_ge u.speed u.record.stallSpeed with slow | fast
    · rcases lt_or_ge u.stallRun 2 with few | third
      · simp [FanUnit.judged_of_running_slow h slow few, h, few.not_ge]
      · simp [FanUnit.judged_of_running_third h slow third, slow, third]
    · simp [FanUnit.judged_of_running_fast h fast, h, fast.not_gt]
  | stalled =>
    rcases lt_or_ge u.speed u.record.stallSpeed with slow | fast
    · simp [FanUnit.judged_of_stalled_slow h slow, h, slow]
    · rcases lt_or_ge u.recovery 2 with few | third
      · simp [FanUnit.judged_of_stalled_fast h fast few, h, few]
      · simp [FanUnit.judged_of_stalled_third h fast third, fast.not_gt, third.not_gt]

/-- The judgement leaves a turning fan, one RUNNING or STALLED, turning (R140). -/
theorem FanUnit.judged_turning (h : u.state = .running ∨ u.state = .stalled) :
    u.judged.state = .running ∨ u.judged.state = .stalled := by
  unfold FanUnit.judged
  rcases h with h | h <;> simp only [h] <;> repeat' split
  all_goals simp

/-- The STALL source is made pending by a turn to STALLED, and again by a fan that stays so (R131, R140). -/
theorem FanUnit.reported_iff {again : Bool} : u.reported again ↔
    (u.state = .running ∧ u.speed < u.record.stallSpeed ∧ 2 ≤ u.stallRun)
      ∨ (again = true ∧ u.state = .stalled ∧ (u.speed < u.record.stallSpeed ∨ u.recovery < 2)) := by
  unfold FanUnit.reported
  rw [FanUnit.judged_stalled_iff]
  cases u.state <;> simp [and_comm]

variable (before demand floor : Nat)

theorem FanUnit.moved_of_stopped (h : u.state = .stopped) : u.moved before demand floor =
    if demand = 0 then { u with duty := 0 } else { u with state := .spinup, duty := 1000, spin := 1 } := by
  simp [FanUnit.moved, h]

theorem FanUnit.moved_of_spinup (h : u.state = .spinup) : u.moved before demand floor =
    if demand = 0 then { u with state := .stopped, duty := 0, spin := 0 }
    else if u.spin < 5 then { u with duty := 1000, spin := u.spin + 1 }
    else { u with state := .running, duty := demand, spin := 0, stallRun := 0 } := by
  simp [FanUnit.moved, h]

theorem FanUnit.moved_of_turning (h : u.state = .running ∨ u.state = .stalled) : u.moved before demand floor =
    if demand = 0 then { u with state := .stopped, duty := 0, stallRun := 0, recovery := 0 }
    else { u with duty := slewedDuty before demand floor } := by
  rcases h with h | h <;> simp [FanUnit.moved, h]

end Tables

/-! ### What the update leaves of each fan (R132 to R140) -/

/-- Each fan is measured and judged, may meet a floor delivered by a stall, and moves by a demand whose terms are those of
the state that the update leaves. -/
theorem State.fanUpdate_fan (s : State) (x : Fan) :
    ∃ w, (s.fan x).measured.judged.Delivered w ∧ s.fanUpdate.fan x =
      (s.fanUpdate.demanded w).moved (s.fan x).duty (s.fanUpdate.demanded w).lastDemand s.fanUpdate.fans.floor := by
  obtain ⟨t, _, e, fan⟩ := s.fanUpdate_spec
  have floor : s.fanUpdate.fans.floor = t.fans.floor := by rw [e]
  have terms : s.fanUpdate.demanded (t.fan x) = t.demanded (t.fan x) := by rw [e]; rfl
  obtain ⟨delivered, moved⟩ := fan x
  refine ⟨t.fan x, delivered, ?_⟩
  rw [terms, floor]
  exact moved

theorem State.fanUpdate_sameMeasure (s : State) (x : Fan) :
    (s.fan x).measured.SameMeasure (s.fanUpdate.fan x) := by
  obtain ⟨w, delivered, e⟩ := s.fanUpdate_fan x
  obtain ⟨_, _, _, _, _, moved⟩ := (s.fanUpdate.demanded w).moved_eq (s.fan x).duty
    (s.fanUpdate.demanded w).lastDemand s.fanUpdate.fans.floor
  refine ((s.fan x).measured.sameMeasure_judged.trans delivered.sameMeasure).trans ?_
  rw [e, moved]
  exact ⟨rfl, rfl, rfl, rfl⟩

/-- The terms of the demand, from the state that the update leaves (R132 to R135). -/
theorem State.fanUpdate_terms (s : State) (x : Fan) :
    let t := s.fanUpdate
    let r := (s.fan x).record
    let v := t.fan x
    v.readingUsed = (t.sensor r.sensor).fanReading ∧ v.lastCurve = r.curveValue t.picture.orientation v.readingUsed
      ∧ v.lastFF = r.feedForward t.light.avg
      ∧ v.lastDemand = demandOf v.lastCurve v.lastFF t.fans.floor r.quietCap (t.fans.quiet && !t.fans.capLifted) := by
  obtain ⟨w, delivered, e⟩ := s.fanUpdate_fan x
  obtain ⟨_, _, _, _, _, moved⟩ := (s.fanUpdate.demanded w).moved_eq (s.fan x).duty
    (s.fanUpdate.demanded w).lastDemand s.fanUpdate.fans.floor
  have record : w.record = (s.fan x).record :=
    ((s.fan x).measured.sameMeasure_judged.trans delivered.sameMeasure).record
  simp only [e]
  rw [moved, ← record]
  exact ⟨rfl, rfl, rfl, rfl⟩

/-- The rows of R137 for a fan that was STOPPED; a floor delivered at step 3 may have begun its spin-up (R141). -/
theorem State.fanUpdate_stopped {s : State} {x : Fan} (h : (s.fan x).state = .stopped) :
    let v := s.fanUpdate.fan x
    (v.lastDemand = 0 → v.state = .stopped ∧ v.duty = 0)
      ∧ (v.lastDemand ≠ 0 → v.state = .spinup ∧ v.duty = 1000 ∧ v.spin = 1) := by
  obtain ⟨w, delivered, e⟩ := s.fanUpdate_fan x
  have start : w.state = .stopped ∨ w.state = .spinup ∧ w.spin = 0 := by
    have stopped : (s.fan x).measured.state = .stopped := h
    rw [FanUnit.judged_of_stopped stopped] at delivered
    rcases delivered.change with rfl | ⟨turning, _⟩ | ⟨_, rfl⟩
    · exact .inl stopped
    · simp [stopped] at turning
    · exact .inr ⟨rfl, rfl⟩
  simp only [e, FanUnit.moved_lastDemand]
  generalize hn : s.fanUpdate.demanded w = n
  rcases start with stopped | ⟨spinup, spin⟩
  · have state : n.state = .stopped := hn ▸ stopped
    rw [FanUnit.moved_of_stopped _ _ _ state]
    constructor <;> intro d <;> simp [d, state]
  · have state : n.state = .spinup := hn ▸ spinup
    have first : n.spin = 0 := hn ▸ spin
    rw [FanUnit.moved_of_spinup _ _ _ state]
    constructor <;> intro d <;> simp [d, state, first]

/-- The rows of R137 for a fan in SPINUP. -/
theorem State.fanUpdate_spinup {s : State} {x : Fan} (h : (s.fan x).state = .spinup) :
    let u := s.fan x
    let v := s.fanUpdate.fan x
    (v.lastDemand = 0 → v.state = .stopped ∧ v.duty = 0 ∧ v.spin = 0)
      ∧ (v.lastDemand ≠ 0 → u.spin < 5 → v.state = .spinup ∧ v.duty = 1000 ∧ v.spin = u.spin + 1)
      ∧ (v.lastDemand ≠ 0 → 5 ≤ u.spin →
          v.state = .running ∧ v.duty = v.lastDemand ∧ v.spin = 0 ∧ v.stallRun = 0) := by
  obtain ⟨w, delivered, e⟩ := s.fanUpdate_fan x
  have spinup : (s.fan x).measured.state = .spinup := h
  have same : w = (s.fan x).measured := by
    rw [FanUnit.judged_of_spinup spinup] at delivered
    simpa [spinup] using delivered.change
  have state : (s.fanUpdate.demanded w).state = .spinup := same ▸ spinup
  have spin : (s.fanUpdate.demanded w).spin = (s.fan x).spin := same ▸ rfl
  simp only [e, FanUnit.moved_lastDemand]
  rw [FanUnit.moved_of_spinup _ _ _ state, ← spin]
  refine ⟨fun zero => ?_, fun more few => ?_, fun more fifth => ?_⟩
  · simp [zero]
  · simp [more, few, state]
  · simp [more, fifth.not_gt]

/-- The rows of R137 for a fan that was RUNNING or STALLED: the slew from the duty before the update (R136), the state
and the counts as the judgement left them. -/
theorem State.fanUpdate_turning {s : State} {x : Fan} (h : (s.fan x).state = .running ∨ (s.fan x).state = .stalled) :
    let u := (s.fan x).measured.judged
    let v := s.fanUpdate.fan x
    (v.lastDemand = 0 → v.state = .stopped ∧ v.duty = 0 ∧ v.stallRun = 0 ∧ v.recovery = 0)
      ∧ (v.lastDemand ≠ 0 → v.duty = slewedDuty (s.fan x).duty v.lastDemand s.fanUpdate.fans.floor
          ∧ v.state = u.state ∧ v.stallRun = u.stallRun ∧ v.recovery = u.recovery) := by
  obtain ⟨w, delivered, e⟩ := s.fanUpdate_fan x
  have judged := FanUnit.judged_turning (u := (s.fan x).measured) h
  have same : w.state = (s.fan x).measured.judged.state := by
    rcases judged with running | stalled
    · rw [running]; exact delivered.running.2 running
    · rw [stalled]; exact delivered.stalled.2 stalled
  have state : (s.fanUpdate.demanded w).state = .running ∨ (s.fanUpdate.demanded w).state = .stalled := same ▸ judged
  simp only [e, FanUnit.moved_lastDemand]
  rw [FanUnit.moved_of_turning _ _ _ state]
  constructor
  · intro zero
    simp [zero]
  · intro more
    rw [if_neg more]
    exact ⟨rfl, same, delivered.stallRun, delivered.recovery⟩

/-! ### What the update leaves of the rest (R125, R126, R131, R132) -/

/-- The STALL source of a fan that is to be reported is pending. -/
theorem State.fanUpdate_reports {s : State} {x : Fan} (h : (s.fan x).measured.reported s.fans.reReport) :
    s.fanUpdate.prot.pending.get (stallSource x) = true := by
  obtain ⟨t, j, e, _⟩ := s.fanUpdate_spec
  rw [e]
  refine j.reported x (by cases x <;> decide) ?_
  simpa only [State.fan, PerFan.get_map] using h

/-- With no fan to report only the fans and the light unit's period are another (R125, R132). -/
theorem State.fanUpdate_silent {s : State} (h : ∀ x, ¬ (s.fan x).measured.reported s.fans.reReport) :
    s.fanUpdate = { s with light := s.light.closePeriod, fans := { s.fans with
      reReport := false, curveSet := s.picture.orientation, units := s.fanUpdate.fans.units } } := by
  obtain ⟨t, j, e, _⟩ := s.fanUpdate_spec
  have silent := j.silent fun x _ => by simpa only [State.fan, PerFan.get_map] using h x
  rw [e, silent]

/-- The blocks that no part of the update reaches. -/
theorem State.fanUpdate_frame (s : State) :
    let t := s.fanUpdate
    t.startup = s.startup ∧ t.link = s.link ∧ t.intake = s.intake ∧ t.table = s.table ∧ t.gen = s.gen
      ∧ t.mem = s.mem ∧ t.sensors = s.sensors ∧ t.pins = s.pins ∧ t.hold = s.hold ∧ t.pending = s.pending := by
  obtain ⟨t, j, e, _⟩ := s.fanUpdate_spec
  rw [e]
  exact ⟨j.startup, j.link, j.intake, j.table, j.gen, j.mem, j.sensors, j.pins, j.hold, j.pending⟩

/-- What the update reads the demands with: the orientation, whose curve set it reports, and QUIET (R132, R135). -/
theorem State.fanUpdate_inputs (s : State) :
    let t := s.fanUpdate
    t.picture.orientation = s.picture.orientation ∧ t.fans.curveSet = s.picture.orientation
      ∧ t.fans.quiet = s.fans.quiet ∧ t.fans.reReport = false := by
  obtain ⟨t, j, e, _⟩ := s.fanUpdate_spec
  rw [e]
  exact ⟨j.orientation, j.orientation, j.quiet, rfl⟩

/-- The light unit closes its period; the limit and D change by a delivery alone (R125, R126). -/
theorem State.fanUpdate_light (s : State) : s.fanUpdate.light =
    { s.light.closePeriod with limit := s.fanUpdate.light.limit, d := s.fanUpdate.light.d } := by
  obtain ⟨t, j, e, _⟩ := s.fanUpdate_spec
  rw [e]
  exact j.light.rest

theorem exec_tachPulse {s : State} (h : s.hold.held = false) (x : Fan) :
    exec (.tachPulse x) s = .next (s.setFan x { s.fan x with count := (s.fan x).count + 1 }) :=
  whenReleased_eq h fun s => s.setFan x { s.fan x with count := (s.fan x).count + 1 }

theorem exec_fanUpdate {s : State} (h : s.hold.held = false) : exec .fanUpdate s = .next s.fanUpdate :=
  whenReleased_eq h (·.fanUpdate)

/-- Settles O49: the light unit's period, then each fan's terms, reports and move, and the frame of the rest. -/
theorem fanUpdateMovesTheFans : Obligations.FanUpdateMovesTheFans := by
  intro s released
  have light := s.fanUpdate_light
  obtain ⟨orientation, curveSet, quiet, reReport⟩ := s.fanUpdate_inputs
  have measure := s.fanUpdate_sameMeasure
  refine ⟨exec_tachPulse released, s.fanUpdate, exec_fanUpdate released, by rw [light]; rfl,
    by rw [light]; rfl, by rw [light]; rfl, by rw [light]; rfl, by rw [light]; rfl, by rw [light]; rfl, curveSet,
    quiet, reReport, fun x => ?terms, fun noAgain noTurn => ?silent, fun x =>
      ⟨State.fanUpdate_stopped, State.fanUpdate_spinup, fun turning => ?turning⟩, s.fanUpdate_frame⟩
  case terms =>
    obtain ⟨record, history, count, speed⟩ := measure x
    obtain ⟨reading, curve, feed, demand⟩ := s.fanUpdate_terms x
    refine ⟨history, count, record, speed, ?_, ?_, feed, ?_, fun running slow third => ?_,
      fun again stalled still => ?_⟩
    · rw [reading, State.sensor, s.fanUpdate_sensors]; rfl
    · rw [curve, orientation]
      cases s.picture.orientation <;> rfl
    · rw [demand, quiet]
      simp [demandOf]
    · exact State.fanUpdate_reports (FanUnit.reported_iff.2 (.inl ⟨running, speed ▸ slow, third⟩))
    · exact State.fanUpdate_reports (FanUnit.reported_iff.2 (.inr ⟨again, stalled, speed ▸ still⟩))
  case silent =>
    have none : ∀ x, ¬ (s.fan x).measured.reported s.fans.reReport := by
      intro x reported
      rcases FanUnit.reported_iff.1 reported with ⟨running, slow, third⟩ | ⟨again, _⟩
      · have := noTurn x running
        rw [(measure x).speed] at this
        exact this.elim slow.not_ge third.not_gt
      · rw [noAgain] at again
        cases again
    rw [State.fanUpdate_silent none]
    exact ⟨rfl, rfl, rfl, rfl, rfl⟩
  case turning =>
    obtain ⟨zero, more⟩ := State.fanUpdate_turning turning
    have speed := (measure x).speed
    refine ⟨zero, fun demand => ?_⟩
    obtain ⟨duty, state, stallRun, recovery⟩ := more demand
    rw [state, stallRun, recovery, speed]
    exact ⟨duty, FanUnit.judged_rows (s.fan x).measured⟩

end Sys2Proof.Machine

namespace Sys2Proof.Machine

/-! # Every fan at or above the delivered floor

One fan through a delivery, a stall judgement and a move; the demand that the move follows; then the fan controller and
every command. -/

/-! ### One fan (R137 to R141) -/

section OneFan

variable {u : FanUnit} {floor : Nat}

theorem FanUnit.Sound.atFloor (h : u.Sound floor) {new : Nat} (covered : new ≤ u.duty) : u.Sound new :=
  { h with floor := covered }

theorem FanUnit.Sound.withRecord (h : u.Sound floor) {r : FanRecord} (hr : r.Sound) :
    FanUnit.Sound { u with record := r } floor :=
  { h with record := hr }

/-- A RUNNING or STALLED fan may have any duty from the floor to full drive. -/
theorem FanUnit.Sound.withDuty (h : u.Sound floor) (turning : u.state = .running ∨ u.state = .stalled) {d new : Nat}
    (covered : new ≤ d) (range : d ≤ 1000) : FanUnit.Sound { u with duty := d } new :=
  { h with
    floor := covered
    top := range
    stopped := fun (stopped : u.state = .stopped) => by simp [stopped] at turning
    spinup := fun (spinup : u.state = .spinup) => by simp [spinup] at turning }

/-- A fan entering SPINUP runs at full drive, which no floor exceeds (R137, R141). -/
theorem FanUnit.Sound.spinUp (h : u.Sound floor) {new spin : Nat} (range : new ≤ 1000) (count : spin ≤ 5) :
    FanUnit.Sound { u with state := .spinup, duty := 1000, spin := spin } new :=
  { h with
    floor := range
    top := le_rfl
    stopped := nofun
    spinup := fun _ => ⟨rfl, count⟩
    running := nofun
    stalled := nofun }

/-- A fan that stops stands at duty 0, which is at or above a floor of 0 (R137). -/
theorem FanUnit.Sound.stop (h : u.Sound floor) {spin stallRun recovery : Nat} (counts : stallRun ≤ 3 ∧ recovery ≤ 3) :
    FanUnit.Sound { u with
      state := .stopped, duty := 0, spin := spin, stallRun := stallRun, recovery := recovery } 0 :=
  { h with
    floor := le_rfl
    top := Nat.zero_le _
    stopped := fun _ => rfl
    spinup := nofun
    counts := counts
    running := nofun
    stalled := nofun }

/-- A delivered floor is met at once, by the fan's duty or by its spin-up (the table of R141). -/
theorem FanUnit.Sound.meetFloor (h : u.Sound floor) {new : Nat} (range : new ≤ 1000) : (u.meetFloor new).Sound new := by
  rw [FanUnit.meetFloor_eq]
  by_cases covered : new ≤ u.duty
  · rw [if_pos covered]
    exact h.atFloor covered
  · rw [if_neg covered]
    split
    · exact h.spinUp range (Nat.zero_le _)
    · next running => exact h.withDuty (.inl running) le_rfl range
    · next stalled => exact h.withDuty (.inr stalled) le_rfl range
    · next spinup => exact absurd (range.trans_eq (h.spinup spinup).1.symm) covered

/-- The newest five counts are kept (R138). -/
theorem FanUnit.Sound.measured (h : u.Sound floor) : u.measured.Sound floor :=
  { h with history := by simp [FanUnit.measured, h.history] }

/-- The judgement counts to three and turns there (the table of R140). -/
theorem FanUnit.Sound.judged (h : u.Sound floor) : u.judged.Sound floor := by
  obtain ⟨stallRun_le, recovery_le⟩ := h.counts
  cases hs : u.state with
  | stopped => rwa [FanUnit.judged_of_stopped hs]
  | spinup => rwa [FanUnit.judged_of_spinup hs]
  | running =>
    rcases lt_or_ge u.speed u.record.stallSpeed with slow | fast
    · rcases lt_or_ge u.stallRun 2 with few | third
      · rw [FanUnit.judged_of_running_slow hs slow few]
        exact { h with counts := ⟨Nat.le_succ_of_le few, recovery_le⟩, running := fun _ => few }
      · rw [FanUnit.judged_of_running_third hs slow third]
        exact { h with
          stopped := nofun
          spinup := nofun
          counts := ⟨Nat.succ_le_succ (h.running hs), Nat.zero_le _⟩
          running := nofun
          stalled := fun _ => Nat.zero_le _ }
    · rw [FanUnit.judged_of_running_fast hs fast]
      exact { h with counts := ⟨Nat.zero_le _, recovery_le⟩, running := fun _ => Nat.zero_le _ }
  | stalled =>
    rcases lt_or_ge u.speed u.record.stallSpeed with slow | fast
    · rw [FanUnit.judged_of_stalled_slow hs slow]
      exact { h with counts := ⟨stallRun_le, Nat.zero_le _⟩, stalled := fun _ => Nat.zero_le _ }
    · rcases lt_or_ge u.recovery 2 with few | third
      · rw [FanUnit.judged_of_stalled_fast hs fast few]
        exact { h with counts := ⟨stallRun_le, Nat.le_succ_of_le few⟩, stalled := fun _ => few }
      · rw [FanUnit.judged_of_stalled_third hs fast third]
        exact { h with
          stopped := nofun
          spinup := nofun
          counts := ⟨Nat.zero_le _, Nat.succ_le_succ (h.stalled hs)⟩
          running := fun _ => Nat.zero_le _
          stalled := nofun }

/-- The slew ends between the floor and full drive (R136). -/
theorem slewedDuty_range {before demand : Nat} (floor_le : floor ≤ 1000) (before_le : before ≤ 1000)
    (demand_le : demand ≤ 1000) : floor ≤ slewedDuty before demand floor ∧ slewedDuty before demand floor ≤ 1000 := by
  refine ⟨le_max_right _ _, max_le ?_ floor_le⟩
  split
  · exact (min_le_right _ _).trans demand_le
  · split
    · omega
    · exact before_le

/-- A demand that covers the floor moves the fan within its promise; a demand of 0 stops it only under a floor of 0
(the table of R137). -/
theorem FanUnit.Sound.moved (h : u.Sound floor) {before demand : Nat} (before_le : before ≤ 1000)
    (covers : floor ≤ demand) (demand_le : demand ≤ 1000) : (u.moved before demand floor).Sound floor := by
  have floor_le : floor ≤ 1000 := covers.trans demand_le
  have floor_zero : demand = 0 → floor = 0 := fun zero => Nat.le_zero.1 (zero ▸ covers)
  obtain ⟨stallRun_le, recovery_le⟩ := h.counts
  obtain hs | hs | turning : u.state = .stopped ∨ u.state = .spinup ∨ u.state = .running ∨ u.state = .stalled := by
    cases u.state <;> simp
  · rw [FanUnit.moved_of_stopped _ _ _ hs]
    split
    · have same : { u with duty := 0 } = u := by rw [← h.stopped hs]
      rwa [same]
    · exact h.spinUp floor_le (by decide)
  · rw [FanUnit.moved_of_spinup _ _ _ hs]
    split
    · next zero =>
      rw [floor_zero zero]
      exact h.stop ⟨stallRun_le, recovery_le⟩
    · split
      · next few =>
        exact { h with
          floor := floor_le
          top := le_rfl
          stopped := fun (stopped : u.state = .stopped) => by simp [hs] at stopped
          spinup := fun _ => ⟨rfl, few⟩ }
      · exact { h with
          floor := covers
          top := demand_le
          stopped := nofun
          spinup := nofun
          counts := ⟨Nat.zero_le _, recovery_le⟩
          running := fun _ => Nat.zero_le _
          stalled := nofun }
  · rw [FanUnit.moved_of_turning _ _ _ turning]
    split
    · next zero =>
      rw [floor_zero zero]
      exact h.stop ⟨Nat.zero_le _, Nat.zero_le _⟩
    · obtain ⟨covered, range⟩ := slewedDuty_range floor_le before_le demand_le
      exact h.withDuty turning covered range

end OneFan

/-! ### The records and the demand (R130, R133 to R135) -/

theorem defaultFanRecord_sound (i : Fan) : (defaultFanRecord i).Sound := by
  cases i <;> exact
    { floorSet := ⟨by decide, by decide, by decide, by decide⟩
      ceilingSet := ⟨by decide, by decide, by decide, by decide⟩
      gain := by decide
      quietCap := by decide }

theorem FanRecord.Sound.curve {r : FanRecord} (h : r.Sound) : ∀ o, CurveSound (r.curve o)
  | .floor => h.floorSet
  | .ceiling => h.ceilingSet

theorem FanRecord.Sound.curveValue_le {r : FanRecord} (h : r.Sound) (o : Orientation) (reading : Int) :
    r.curveValue o reading ≤ 1000 :=
  Int.toNat_le.2 (interpolate_range (h.curve o).range (by decide) reading).2

theorem Light.Sound.zone_le {x : Light} (h : x.Sound) (z : Zone) : x.avg.zone z ≤ 1000 := by
  obtain ⟨laser, lens, dump⟩ := h.averages
  cases z with
  | laser => exact laser
  | dump => exact dump
  | lens => exact lens
  | none => exact Nat.zero_le _

/-- The feed-forward is a share, at most the whole, of the zone's average (R134). -/
theorem FanRecord.Sound.feedForward_le {r : FanRecord} (h : r.Sound) {x : Light} (hx : x.Sound) :
    r.feedForward x.avg ≤ 1000 :=
  Nat.div_le_of_le_mul (Nat.mul_le_mul (hx.zone_le r.zone) h.gain)

/-- The demand covers the floor, and exceeds full drive by none of its terms (R135). -/
theorem demandOf_range {curve ff floor : Nat} (curve_le : curve ≤ 1000) (ff_le : ff ≤ 1000) (floor_le : floor ≤ 1000)
    (cap : Nat) (capped : Bool) :
    floor ≤ demandOf curve ff floor cap capped ∧ demandOf curve ff floor cap capped ≤ 1000 := by
  unfold demandOf
  cases capped
  · simp only [Bool.false_eq_true, if_false]
    split <;> omega
  · simp only [if_true]
    split <;> omega

/-! ### The fan controller -/

/-- Every fan keeps the promise at the delivered floor. -/
def Fans.Sound (x : Fans) : Prop := ∀ i, (x.units.get i).Sound x.floor

theorem State.fansSound_setFan {s : State} (h : s.fans.Sound) (i : Fan) {u : FanUnit} (hu : u.Sound s.fans.floor) :
    (s.setFan i u).fans.Sound := by
  intro j
  change ((s.setFan i u).fan j).Sound s.fans.floor
  by_cases own : j = i
  · rw [own, State.fan_setFan_same]
    exact hu
  · rw [State.fan_setFan_ne _ _ own]
    exact h j

theorem Fans.Sound.deliver {x : Fans} (h : x.Sound) {floor : Nat} (range : floor ≤ 1000) (lifted : Bool) :
    (x.deliver floor lifted).Sound := by
  intro i
  rw [Fans.deliver_get]
  exact (h i).meetFloor range

theorem powerOnFan_sound (i : Fan) : (powerOnFan i).Sound 0 where
  record := defaultFanRecord_sound i
  floor := le_rfl
  top := Nat.zero_le _
  stopped _ := rfl
  spinup := nofun
  history := rfl
  counts := ⟨Nat.zero_le _, Nat.zero_le _⟩
  running := nofun
  stalled := nofun

theorem powerOnFans_sound : powerOnFans.Sound
  | .intake => powerOnFan_sound .intake
  | .light => powerOnFan_sound .light
  | .exhaust => powerOnFan_sound .exhaust

/-- SOFT_RESET keeps the fans' running states under a floor of 0 and gives them the default records (R131). -/
theorem Fans.Sound.softReset {x : Fans} (h : x.Sound) : x.softReset.Sound := by
  intro i
  rw [Fans.softReset_get]
  exact ((h i).withRecord (defaultFanRecord_sound i)).atFloor (Nat.zero_le _)

/-! ### The fans among the other blocks -/

/-- The fans' promise with what it rests on: the action table gives the floors, and the light unit the averages that
feed forward. -/
structure State.Cooled (s : State) : Prop where
  lit : s.Lit
  fans : s.fans.Sound

theorem State.Cooled.of_same {s t : State} (h : s.Cooled) (fans : t.fans = s.fans := by rfl)
    (light : t.light = s.light := by rfl) (table : t.prot.table = s.prot.table := by rfl) : t.Cooled :=
  ⟨h.lit.of_same light table, fans ▸ h.fans⟩

theorem State.Cooled.setFan {s : State} (h : s.Cooled) (i : Fan) {u : FanUnit} (hu : u.Sound s.fans.floor) :
    (s.setFan i u).Cooled :=
  ⟨h.lit.of_same, State.fansSound_setFan h.fans i hu⟩

/-- Whatever ripples out reaches the fans by deliveries alone (R141, R153). -/
theorem State.Ripple.cooled {s t : State} (r : s.Ripple t) (h : s.Cooled) : t.Cooled := by
  obtain ⟨levels, fans⟩ := r.fans
  refine ⟨r.lit h.lit, fans ▸ ?_⟩
  exact foldl_keeps (P := Fans.Sound)
    (fun _ c hx => hx.deliver (h.lit.table.actions_inRange c).2 _) levels h.fans

theorem State.Near.cooled {s t : State} (n : s.Near t) (h : s.Cooled) : t.Cooled := n.ripple.cooled h

theorem State.Cooled.deliver {s : State} (h : s.Cooled) : s.deliver.Cooled := s.ripple_deliver.cooled h

/-! ### The fan update (R132) -/

/-- The terms of the demand are written beside what the promise speaks of. -/
theorem FanUnit.Sound.demanded {u : FanUnit} {floor : Nat} (h : u.Sound floor) (s : State) :
    (s.demanded u).Sound floor :=
  { h with }

theorem State.Cooled.demand_range {s : State} (h : s.Cooled) {u : FanUnit} (record : u.record.Sound)
    (floor_le : s.fans.floor ≤ 1000) :
    s.fans.floor ≤ (s.demanded u).lastDemand ∧ (s.demanded u).lastDemand ≤ 1000 :=
  demandOf_range (record.curveValue_le _ _) (record.feedForward_le h.lit.light) floor_le _ _

theorem State.Cooled.judgeFan {s : State} (h : s.Cooled) (x : Fan) : (s.judgeFan x).Cooled :=
  (s.judgeFan_spec x).1.cooled (h.setFan x (h.fans x).judged)

theorem State.Cooled.updateFan {s : State} (h : s.Cooled) {before : PerFan Nat} (x : Fan)
    (before_le : before.get x ≤ 1000) : (s.updateFan before x).Cooled := by
  have sound : (s.fan x).Sound s.fans.floor := h.fans x
  obtain ⟨covers, range⟩ := h.demand_range sound.record (sound.floor.trans sound.top)
  rw [State.updateFan_eq]
  exact h.setFan x ((sound.demanded s).moved before_le covers range)

theorem State.Cooled.fanUpdate {s : State} (h : s.Cooled) : s.fanUpdate.Cooled := by
  refine State.fanUpdate_keeps (P := State.Cooled) (fun t ht => ⟨⟨ht.lit.table, ht.lit.light.closePeriod⟩, fun i => ?_⟩)
    (fun _ x ht => ht.judgeFan x) (fun _ ht => ⟨ht.lit.of_same, ht.fans⟩) (fun _ x ht => ht.updateFan x ?_) h
  · change ((t.fans.units.map FanUnit.measured).get i).Sound t.fans.floor
    rw [PerFan.get_map]
    exact (ht.fans i).measured
  · rw [PerFan.get_map]
    exact (h.fans x).top

/-! ### The other commands that reach the fans -/

theorem State.Cooled.windowEnd {s : State} (h : s.Cooled) (x : Sensor) (sample : Int) : (s.windowEnd x sample).Cooled :=
  State.windowEnd_keeps (fun _ h => h.of_same) (fun t y h => (t.ripple_makePending y).cooled h) (fun _ _ h => h.of_same)
    (fun t _ h => t.ripple_startUpkeep.cooled h) (fun _ h => h.of_same) h

theorem State.Cooled.linkLoss {s : State} (h : s.Cooled) : s.linkLoss.Cooled := by
  unfold State.linkLoss
  simp only
  split
  · exact h
  · exact (State.ripple_makePending _ _).cooled
      ((State.near_raise _ _).cooled ⟨⟨h.lit.table, h.lit.light.withDrive (Nat.zero_le _)⟩, h.fans⟩)

theorem State.Cooled.softReset {s : State} (h : s.Cooled) : s.softReset.Cooled := by
  have accepted : s.softAccepted.Cooled := ⟨⟨defaultActions_sound, resetLight_sound⟩, h.fans.softReset⟩
  rw [State.softReset_eq]
  split
  · exact accepted
  · exact (State.ripple_makePending _ _).cooled ((State.near_raise _ _).cooled accepted)

theorem State.Cooled.lowerTo {s : State} (h : s.Cooled) (target : Nat) : (s.lowerTo target).Cooled := by
  unfold State.lowerTo
  simp only
  split
  · exact h
  · exact State.Cooled.deliver ((State.near_raise _ _).cooled h.of_same)

theorem lowerBody_cooled {s : State} (h : s.Cooled) (p : List Word) : (lowerBody p s).1.Cooled := by
  refine fieldsThen_keeps h fun target _ => ?_
  repeat' split
  · exact h
  · exact h
  · exact h.lowerTo _

theorem levelsBody_cooled {s : State} (h : s.Cooled) (p : List Word) : (levelsBody p s).1.Cooled :=
  fieldsThen_keeps h fun _ _ => (State.ripple_accept _).cooled h.of_same

/-- The floors of a table that ACTIONS takes are in range (R152). -/
theorem actionsBody_cooled {s : State} (h : s.Cooled) (p : List Word) : (actionsBody p s).1.Cooled := by
  refine fieldsThen_keeps h fun table fields => ?_
  have taken : State.Cooled { s with prot := { s.prot with table := table } } :=
    ⟨⟨actionsFields_sound fields, h.lit.light⟩, h.fans⟩
  simp only
  split
  · exact taken.deliver
  · exact taken

/-- FAN_CURVE replaces one curve set by a sound one (R143). -/
theorem fanCurveBody_sound {s : State} (h : s.fans.Sound) (p : List Word) : (fanCurveBody p s).1.fans.Sound := by
  refine fieldsThen_keeps (P := fun t => t.fans.Sound) h fun (x, o, table) fields => ?_
  have curve : CurveSound table := fanCurveFields_sound fields
  have record : (s.fan x).record.Sound := (h x).record
  refine State.fansSound_setFan h x ((h x).withRecord ?_)
  cases o with
  | floor => exact { record with floorSet := curve }
  | ceiling => exact { record with ceilingSet := curve }

/-- FAN_LIMITS clamps the quiet cap from below (R144). -/
theorem fanLimitsBody_sound {s : State} (h : s.fans.Sound) (p : List Word) : (fanLimitsBody p s).1.fans.Sound := by
  refine fieldsThen_keeps (P := fun t => t.fans.Sound) h fun f fields => ?_
  obtain ⟨gain, cap⟩ := fanLimitsFields_range fields
  exact State.fansSound_setFan h f.fan ((h f.fan).withRecord { (h f.fan).record with
    gain := gain, quietCap := ⟨le_max_right _ _, max_le cap (by decide)⟩ })

theorem quietBody_sound {s : State} (h : s.fans.Sound) (p : List Word) : (quietBody p s).1.fans.Sound :=
  fieldsThen_keeps (P := fun t => t.fans.Sound) h fun _ _ => h

/-- A pulse is counted in every fan state (R138). -/
theorem State.fansSound_tachPulse {s : State} (h : s.fans.Sound) (x : Fan) :
    (s.setFan x { s.fan x with count := (s.fan x).count + 1 }).fans.Sound :=
  State.fansSound_setFan h x { h x with }

/-! ### Every command -/

/-- Command by command: those that reach the fans, the deliveries, and the rest, which leave the fans. -/
theorem State.fansSound_kept : State.Kept State.Cooled fun s => s.fans.Sound where
  weaken _ h := h.fans
  queue _ _ h := h.of_same
  ended _ _ _ _ h := h
  holding _ _ h := h.fans
  powerOn _ _ _ := powerOnFans_sound
  checkEnds s passed h := by obtain ⟨_, _, r⟩ := s.checkEnds_effect passed; exact (r.cooled h.of_same).fans
  frameStart s parity z h := by
    obtain ⟨_, _, _, _, _, _, _, e⟩ := s.inputFrameStart_frame parity z
    rw [e]
    exact h.fans
  activeLine s xs h := by obtain ⟨_, _, e⟩ := s.activeLine_frame xs; rw [e]; exact h.fans
  blankingSlot s words h := by obtain ⟨_, _, n⟩ := s.blankingSlot_frame words; exact (n.cooled h.of_same).fans
  linkLoss _ h := h.linkLoss.fans
  sendLine s h := by obtain ⟨_, e⟩ := s.sendLine_frame; rw [e]; exact h.fans
  endFrame s h := by obtain ⟨_, _, e⟩ := s.endFrame_frame; rw [e]; exact h.fans
  send s h := by obtain ⟨_, _, e⟩ := s.send_frame; rw [e]; exact h.fans
  silent _ h := h.fans
  fanUpdate _ h := h.fanUpdate.fans
  tachPulse _ x h := State.fansSound_tachPulse h.fans x
  windowEnd _ x sample h := (h.windowEnd x sample).fans
  stepAxis s a h := ((s.ripple_stepAxis a).cooled h).fans
  pins _ _ _ h := h.of_same
  switchCloses s a h := ((s.ripple_switchCloses a).cooled h).fans
  switchOpens s a h := ((s.near_switchOpens a).cooled h).fans
  boundReached s a h := ((s.ripple_boundReached a).cooled h).fans
  legTimeout s a h := ((s.ripple_legTimeout a).cooled h).fans
  driverFault s a h := ((s.ripple_enterFault a _).cooled h).fans
  endGeneration s h := by obtain ⟨_, _, _, n⟩ := s.endGeneration_effect; exact (n.cooled h.of_same).fans
  softReset _ h := h.softReset.fans
  stop s p h := ((stopBody_effect p s).cooled h).fans
  lock s p h := by obtain ⟨_, n⟩ := lockBody_effect p s; exact (n.cooled h.of_same).fans
  unlock s p h := by obtain ⟨_, n⟩ := unlockBody_effect p s; exact (n.cooled h.of_same).fans
  clear s p h := by obtain ⟨_, e⟩ := clearBody_frame p s; rw [e]; exact h.fans
  lower _ p h := (lowerBody_cooled h p).fans
  eventAck s p h := by obtain ⟨_, e⟩ := eventAckBody_frame p s; rw [e]; exact h.fans
  move s p h := ((moveBody_effect p s).cooled h).fans
  hold s p h := ((holdBody_effect p s).cooled h).fans
  resume s p h := ((resumeBody_effect p s).cooled h).fans
  returnMove s p h := ((returnBody_effect p s).cooled h).fans
  home s p h := ((homeBody_effect p s).cooled h).fans
  place s p h := ((placeBody_effect p s).cooled h).fans
  placeCancel s p h := by obtain ⟨_, e⟩ := placeCancelBody_frame p s; rw [e]; exact h.fans
  install s p h := by obtain ⟨_, e⟩ := installBody_frame p s; rw [e]; exact h.fans
  pictureMode s p h := by obtain ⟨_, e⟩ := pictureModeBody_frame p s; rw [e]; exact h.fans
  tableOpen s p h := by obtain ⟨_, e⟩ := tableOpenBody_frame p s; rw [e]; exact h.fans
  tableRun s p h := by obtain ⟨_, e⟩ := tableRunBody_frame p s; rw [e]; exact h.fans
  tableCommit s p h := by obtain ⟨_, e⟩ := tableCommitBody_frame p s; rw [e]; exact h.fans
  corners s p h := by obtain ⟨_, _, e⟩ := cornersBody_frame p s; rw [e]; exact h.fans
  lensCal s p h := by obtain ⟨_, e⟩ := lensCalBody_frame p s; rw [e]; exact h.fans
  profile s p h := by obtain ⟨_, e⟩ := profileBody_frame p s; rw [e]; exact h.fans
  focusTable s p h := by obtain ⟨_, e⟩ := focusTableBody_frame p s; rw [e]; exact h.fans
  focusUpkeep s p h := by obtain ⟨_, e⟩ := focusUpkeepBody_frame p s; rw [e]; exact h.fans
  sensorSet s p h := by obtain ⟨_, e⟩ := sensorSetBody_frame p s; rw [e]; exact h.fans
  thresholds s p h := by obtain ⟨_, e⟩ := thresholdsBody_frame p s; rw [e]; exact h.fans
  brightness s p h := by obtain ⟨_, e⟩ := brightnessBody_frame p s; rw [e]; exact h.fans
  fanCurve _ p h := fanCurveBody_sound h.fans p
  fanLimits _ p h := fanLimitsBody_sound h.fans p
  quiet _ p h := quietBody_sound h.fans p
  levels _ p h := (levelsBody_cooled h p).fans
  actions _ p h := (actionsBody_cooled h p).fans
  eventMask s p h := by obtain ⟨_, e⟩ := eventMaskBody_frame p s; rw [e]; exact h.fans
  queryCounters s p h := by obtain ⟨_, _, _, e⟩ := countersBody_frame p s; rw [e]; exact h.fans
  queryCause s p h := by obtain ⟨_, e⟩ := causeBody_frame p s; rw [e]; exact h.fans

/-- Settles O15: the promise of the fans is kept by each command's effect. That the floor in force is the current
level's (R153) plays no part, since every delivery brings its floor with it. -/
theorem fansNeverFallBelowTheFloor : Obligations.FansNeverFallBelowTheFloor :=
  fun _ _ table _ light fans hstep => State.fansSound_kept.step ⟨⟨table, light⟩, fans⟩ hstep

end Sys2Proof.Machine

namespace Sys2Proof.Machine

/-! # Protection levels

The highest level asked for and its cause, what the protection unit's own operations keep, the actions in force, and
what makes a source pending or moves C. -/

/-! ### The highest level asked for (R147, R150, R157) -/

theorem Protection.topLevel_le_iff {p : Protection} {n : Nat} :
    p.topLevel ≤ n ↔ ∀ x, p.pending.get x = true → p.levels.get x ≤ n := by
  refine ⟨fun h x hx => (p.le_topLevel hx).trans h, fun h => ?_⟩
  by_cases none : p.topLevel = 0
  · omega
  · obtain ⟨x, hx, e⟩ := p.topLevel_attained none
    exact e ▸ h x hx

theorem Protection.lt_topLevel_iff {p : Protection} {n : Nat} :
    n < p.topLevel ↔ ∃ x, p.pending.get x = true ∧ n < p.levels.get x := by
  rw [← not_le, Protection.topLevel_le_iff]
  push Not
  rfl

/-- The top level is that of a pending source to which no other is above. -/
theorem Protection.topLevel_eq {p : Protection} {x : Source} (hx : p.pending.get x = true)
    (top : ∀ y, p.pending.get y = true → p.levels.get y ≤ p.levels.get x) : p.topLevel = p.levels.get x :=
  (Protection.topLevel_le_iff.2 top).antisymm (p.le_topLevel hx)

/-- A source's number is read back as the source (R147). -/
theorem sourceOf_sourceNumber (x : Source) : sourceOf (BitVec.ofNat 16 (sourceNumber x)) = some x := by cases x <;> rfl

theorem sourceNumber_injective : Function.Injective sourceNumber := fun x y h =>
  Option.some.inj (by rw [← sourceOf_sourceNumber x, h, sourceOf_sourceNumber])

/-- The cause of a level is the lowest-numbered pending source of it (R150, R157). -/
theorem Protection.causeAt_of_lowest {p : Protection} {x : Source} {c : Nat} (hx : p.pending.get x = true)
    (level : p.levels.get x = c)
    (lowest : ∀ y, sourceNumber y < sourceNumber x → p.pending.get y = true → p.levels.get y ≠ c) :
    p.causeAt c = .source x := by
  obtain ⟨y, e, hy, hc, first⟩ := p.causeAt_eq c ⟨x, hx, level⟩
  have same : sourceNumber y = sourceNumber x := by
    rcases lt_trichotomy (sourceNumber y) (sourceNumber x) with below | same | above
    · exact absurd hc (lowest y below hy)
    · exact same
    · exact absurd level (first x above hx)
  rw [e, sourceNumber_injective same]

/-! ### The acceptance at the protection unit (R150) -/

theorem Protection.accepted_of_le {p : Protection} (h : p.topLevel ≤ p.c) : p.accepted = p := if_neg (not_lt.2 h)

theorem Protection.accepted_of_lt {p : Protection} (h : p.c < p.topLevel) :
    p.accepted = { p with c := p.topLevel, cause := p.causeAt p.topLevel } := if_pos h

@[simp] theorem Protection.accepted_pending (p : Protection) : p.accepted.pending = p.pending := by
  unfold Protection.accepted; split <;> rfl

@[simp] theorem Protection.accepted_levels (p : Protection) : p.accepted.levels = p.levels := by
  unfold Protection.accepted; split <;> rfl

@[simp] theorem Protection.accepted_table (p : Protection) : p.accepted.table = p.table := by
  unfold Protection.accepted; split <;> rfl

/-- The protection unit after a LOWER that is taken (the table of R157). -/
def Protection.lowered (p : Protection) (target : Nat) : Protection :=
  let c := max target p.topLevel
  if c = p.c then p
  else { p with c := c, cause := if target < c then p.causeAt c else if 0 < target then .host else .none }

theorem State.lowerTo_prot (s : State) (target : Nat) : (s.lowerTo target).prot = s.prot.lowered target := by
  unfold State.lowerTo Protection.lowered
  simp only
  split
  · rfl
  · exact State.deliver_prot _

/-! ### What every operation of the protection unit keeps -/

/-- `R` holds after reset and survives each operation of the protection unit (R148 to R157). -/
structure Protection.Kept (R : Protection → Prop) : Prop where
  reset : R resetProtection
  accepted : ∀ p, R p → R p.accepted
  pended : ∀ p x, R p → R (p.pended x)
  cleared : ∀ (p : Protection) x, R p → R { p with pending := p.pending.set x false }
  lowered : ∀ p target, target < p.c → R p → R (p.lowered target)
  levels : ∀ (p : Protection) (levels : PerSource Nat), (∀ x, x ≠ .trip → levels.get x ≤ 3) → R p →
    R (Protection.accepted { p with levels := { levels with trip := p.levels.trip } })
  actions : ∀ (p : Protection) table, table.Sound → R p → R { p with table := table }

section ProtectionKept

variable {R : Protection → Prop} (K : Protection.Kept R) {s t : State}

include K

/-- A ripple reaches the protection unit by acceptances and sources made pending alone. -/
theorem Protection.Kept.ripple (r : s.Ripple t) (h : R s.prot) : R t.prot := by
  obtain ⟨sources, e⟩ := r.prot
  rw [e]
  refine foldl_keeps (P := R) (fun p x hp => ?_) sources h
  cases x with
  | none => exact K.accepted p hp
  | some x => exact K.pended p x hp

theorem Protection.Kept.near (n : s.Near t) (h : R s.prot) : R t.prot := K.ripple n.ripple h

theorem Protection.Kept.softReset (s : State) : R s.softReset.prot := by
  have accepted : R s.softAccepted.prot := K.reset
  rw [State.softReset_eq]
  split
  · exact accepted
  · exact K.ripple ((State.near_raise _ _).ripple.trans (State.ripple_makePending _ _)) accepted

theorem Protection.Kept.fanUpdate (h : R s.prot) : R s.fanUpdate.prot :=
  State.fanUpdate_keeps (P := fun s => R s.prot) (R := fun s => R s.prot) (fun _ h => h)
    (fun _ x h => State.judgeFan_keeps (P := fun s => R s.prot) (fun _ _ _ h => h)
      (fun t y h => K.ripple (t.ripple_makePending y) h) x h)
    (fun _ h => h) (fun _ _ h => h) h

theorem Protection.Kept.windowEnd (x : Sensor) (sample : Int) (h : R s.prot) : R (s.windowEnd x sample).prot :=
  State.windowEnd_keeps (P := fun s => R s.prot) (fun _ h => h) (fun t y h => K.ripple (t.ripple_makePending y) h)
    (fun _ _ h => h) (fun t _ h => K.ripple t.ripple_startUpkeep h) (fun _ h => h) h

theorem Protection.Kept.clearBody (p : List Word) (h : R s.prot) : R (clearBody p s).1.prot := by
  refine fieldsThen_keeps (P := fun t => R t.prot) h fun x _ => ?_
  simp only [State.clearSource]
  split
  · exact h
  · exact K.cleared _ x h

theorem Protection.Kept.lowerBody (p : List Word) (h : R s.prot) : R (lowerBody p s).1.prot := by
  refine fieldsThen_keeps (P := fun t => R t.prot) h fun w _ => ?_
  split
  · exact h
  · rename_i below
    split
    · exact h
    · simp only [State.lowerTo_prot]
      exact K.lowered _ _ (not_le.1 below) h

theorem Protection.Kept.levelsBody (p : List Word) (h : R s.prot) : R (levelsBody p s).1.prot := by
  refine fieldsThen_keeps (P := fun t => R t.prot) h fun levels fields => ?_
  simp only [State.accept_prot]
  exact K.levels _ levels (levelsFields_range fields).2 h

theorem Protection.Kept.actionsBody (p : List Word) (h : R s.prot) : R (actionsBody p s).1.prot := by
  refine fieldsThen_keeps (P := fun t => R t.prot) h fun table fields => ?_
  have taken := K.actions _ table (actionsFields_sound fields) h
  simp only
  split
  · rw [State.deliver_prot]
    exact taken
  · exact taken

/-- Command by command: the messages to the protection unit, the resets, what ripples, and the rest, which leave
the unit. -/
theorem Protection.Kept.kept : State.Kept fun s => R s.prot where
  weaken _ h := h
  queue _ _ h := h
  ended _ _ _ _ h := h
  holding _ _ h := h
  powerOn _ _ _ := K.reset
  checkEnds s passed h := by obtain ⟨_, _, r⟩ := s.checkEnds_effect passed; exact K.ripple r h
  frameStart s parity z h := by
    obtain ⟨_, _, _, _, _, _, _, e⟩ := s.inputFrameStart_frame parity z
    rw [e]
    exact h
  activeLine s xs h := by obtain ⟨_, _, e⟩ := s.activeLine_frame xs; rw [e]; exact h
  blankingSlot s words h := by obtain ⟨_, _, n⟩ := s.blankingSlot_frame words; exact K.near n h
  linkLoss s h := by obtain ⟨_, _, _, r⟩ := s.linkLoss_effect; exact K.ripple r h
  sendLine s h := by obtain ⟨_, e⟩ := s.sendLine_frame; rw [e]; exact h
  endFrame s h := by obtain ⟨_, _, e⟩ := s.endFrame_frame; rw [e]; exact h
  send s h := by obtain ⟨_, _, e⟩ := s.send_frame; rw [e]; exact h
  silent _ h := h
  fanUpdate _ h := K.fanUpdate h
  tachPulse _ _ h := h
  windowEnd _ x sample h := K.windowEnd x sample h
  stepAxis s a h := K.ripple (s.ripple_stepAxis a) h
  pins _ _ _ h := h
  switchCloses s a h := K.ripple (s.ripple_switchCloses a) h
  switchOpens s a h := K.near (s.near_switchOpens a) h
  boundReached s a h := K.ripple (s.ripple_boundReached a) h
  legTimeout s a h := K.ripple (s.ripple_legTimeout a) h
  driverFault s a h := K.ripple (s.ripple_enterFault a _) h
  endGeneration s h := by obtain ⟨_, _, _, n⟩ := s.endGeneration_effect; exact K.near n h
  softReset s _ := K.softReset s
  stop s p h := K.near (stopBody_effect p s) h
  lock s p h := by obtain ⟨_, n⟩ := lockBody_effect p s; exact K.near n h
  unlock s p h := by obtain ⟨_, n⟩ := unlockBody_effect p s; exact K.near n h
  clear _ p h := K.clearBody p h
  lower _ p h := K.lowerBody p h
  eventAck s p h := by obtain ⟨_, e⟩ := eventAckBody_frame p s; rw [e]; exact h
  move s p h := K.ripple (moveBody_effect p s) h
  hold s p h := K.ripple (holdBody_effect p s) h
  resume s p h := K.ripple (resumeBody_effect p s) h
  returnMove s p h := K.ripple (returnBody_effect p s) h
  home s p h := K.ripple (homeBody_effect p s) h
  place s p h := K.ripple (placeBody_effect p s) h
  placeCancel s p h := by obtain ⟨_, e⟩ := placeCancelBody_frame p s; rw [e]; exact h
  install s p h := by obtain ⟨_, e⟩ := installBody_frame p s; rw [e]; exact h
  pictureMode s p h := by obtain ⟨_, e⟩ := pictureModeBody_frame p s; rw [e]; exact h
  tableOpen s p h := by obtain ⟨_, e⟩ := tableOpenBody_frame p s; rw [e]; exact h
  tableRun s p h := by obtain ⟨_, e⟩ := tableRunBody_frame p s; rw [e]; exact h
  tableCommit s p h := by obtain ⟨_, e⟩ := tableCommitBody_frame p s; rw [e]; exact h
  corners s p h := by obtain ⟨_, _, e⟩ := cornersBody_frame p s; rw [e]; exact h
  lensCal s p h := by obtain ⟨_, e⟩ := lensCalBody_frame p s; rw [e]; exact h
  profile s p h := by obtain ⟨_, e⟩ := profileBody_frame p s; rw [e]; exact h
  focusTable s p h := by obtain ⟨_, e⟩ := focusTableBody_frame p s; rw [e]; exact h
  focusUpkeep s p h := by obtain ⟨_, e⟩ := focusUpkeepBody_frame p s; rw [e]; exact h
  sensorSet s p h := by obtain ⟨_, e⟩ := sensorSetBody_frame p s; rw [e]; exact h
  thresholds s p h := by obtain ⟨_, e⟩ := thresholdsBody_frame p s; rw [e]; exact h
  brightness s p h := by obtain ⟨_, e⟩ := brightnessBody_frame p s; rw [e]; exact h
  fanCurve s p h := by obtain ⟨_, e⟩ := fanCurveBody_frame p s; rw [e]; exact h
  fanLimits s p h := by obtain ⟨_, e⟩ := fanLimitsBody_frame p s; rw [e]; exact h
  quiet s p h := by obtain ⟨_, e⟩ := quietBody_frame p s; rw [e]; exact h
  levels _ p h := K.levelsBody p h
  actions _ p h := K.actionsBody p h
  eventMask s p h := by obtain ⟨_, e⟩ := eventMaskBody_frame p s; rw [e]; exact h
  queryCounters s p h := by obtain ⟨_, _, _, e⟩ := countersBody_frame p s; rw [e]; exact h
  queryCause s p h := by obtain ⟨_, e⟩ := causeBody_frame p s; rw [e]; exact h

end ProtectionKept

/-! ### No pending source above C (R147, R150, R157) -/

/-- What is promised of the levels and of C before an acceptance has looked at the pending sources. -/
structure Protection.InRange (p : Protection) : Prop where
  trip : p.levels.trip = 4
  levels : ∀ x, x ≠ Source.trip → p.levels.get x ≤ 3
  current : p.c ≤ 4
  cause : p.cause = .none ↔ p.c = 0

theorem Protection.Sound.inRange {p : Protection} (h : p.Sound) : p.InRange := { h with }

theorem Protection.InRange.topLevel_le {p : Protection} (h : p.InRange) : p.topLevel ≤ 4 := by
  refine Protection.topLevel_le_iff.2 fun x _ => ?_
  by_cases own : x = .trip
  · exact own ▸ h.trip.le
  · exact (h.levels x own).trans (by decide)

/-- Where some level is asked for, the cause of the highest is a source. -/
theorem Protection.causeAt_topLevel_ne_none {p : Protection} (h : p.topLevel ≠ 0) : p.causeAt p.topLevel ≠ .none := by
  obtain ⟨x, e, _⟩ := p.causeAt_eq p.topLevel (p.topLevel_attained h)
  simp [e]

/-- An acceptance raises C to every pending source's level (R150). -/
theorem Protection.InRange.accepted {p : Protection} (h : p.InRange) : p.accepted.Sound := by
  rcases Nat.lt_or_ge p.c p.topLevel with above | covered
  · rw [Protection.accepted_of_lt above]
    have some : p.topLevel ≠ 0 := by omega
    exact { h with
      current := h.topLevel_le
      noneAbove := fun _ hx => p.le_topLevel hx
      cause := iff_of_false (Protection.causeAt_topLevel_ne_none some) some }
  · rw [Protection.accepted_of_le covered]
    exact { h with noneAbove := Protection.topLevel_le_iff.1 covered }

theorem Protection.Sound.pended {p : Protection} (h : p.Sound) (x : Source) : (p.pended x).Sound := by
  unfold Protection.pended
  split
  · exact h
  · exact Protection.InRange.accepted { h with }

/-- A cleared source asks for no level. -/
theorem Protection.Sound.cleared {p : Protection} (h : p.Sound) (x : Source) :
    Protection.Sound { p with pending := p.pending.set x false } :=
  { h with
    noneAbove := fun y hy => by
      by_cases own : y = x
      · subst own
        simp at hy
      · exact h.noneAbove y (by rwa [PerSource.get_set_ne _ _ own] at hy) }

/-- LOWER stops at the highest level a pending source asks for (R157). -/
theorem Protection.Sound.lowered {p : Protection} (h : p.Sound) {target : Nat} (below : target < p.c) :
    (p.lowered target).Sound := by
  have top := h.inRange.topLevel_le
  have current := h.current
  unfold Protection.lowered
  simp only
  split
  · exact h
  · refine { h with
      current := by change max target p.topLevel ≤ 4; omega
      noneAbove := fun x hx => (p.le_topLevel hx).trans (le_max_right _ _)
      cause := ?_ }
    change (if target < max target p.topLevel then p.causeAt (max target p.topLevel)
      else if 0 < target then LevelCause.host else LevelCause.none) = .none ↔ max target p.topLevel = 0
    rcases Nat.lt_or_ge target p.topLevel with stopped | reached
    · have asked : p.topLevel ≠ 0 := by omega
      rw [max_eq_right stopped.le, if_pos stopped]
      exact iff_of_false (Protection.causeAt_topLevel_ne_none asked) asked
    · rw [max_eq_left reached, if_neg (lt_irrefl _)]
      by_cases zero : target = 0
      · simp [zero]
      · simp [Nat.pos_of_ne_zero zero, zero]

/-- LEVELS leaves TRIP's level and is followed by an acceptance (R149). -/
theorem Protection.Sound.newLevels {p : Protection} (h : p.Sound) {levels : PerSource Nat}
    (range : ∀ x, x ≠ Source.trip → levels.get x ≤ 3) :
    (Protection.accepted { p with levels := { levels with trip := p.levels.trip } }).Sound :=
  Protection.InRange.accepted { h with
    levels := fun x other => by
      cases x with
      | trip => exact absurd rfl other
      | _ => exact range _ other }

theorem resetProtection_sound : resetProtection.Sound where
  trip := rfl
  levels x other := by
    cases x with
    | trip => exact absurd rfl other
    | _ => decide
  current := by decide
  noneAbove x hx := by cases x <;> cases hx
  cause := by decide

theorem Protection.sound_kept : Protection.Kept Protection.Sound where
  reset := resetProtection_sound
  accepted _ h := h.inRange.accepted
  pended _ x h := h.pended x
  cleared _ x h := h.cleared x
  lowered _ _ below h := h.lowered below
  levels _ _ range h := h.newLevels range
  actions _ _ _ h := { h with }

/-- Settles O11: every operation of the protection unit keeps the promise, and every command reaches the unit by
them alone. -/
theorem noPendingSourceAboveTheLevel : Obligations.NoPendingSourceAboveTheLevel :=
  fun _ _ sound hstep => Protection.sound_kept.kept.step sound hstep

/-! ### The action table and the actions in force (R151 to R153) -/

theorem Protection.lowered_table (p : Protection) (target : Nat) : (p.lowered target).table = p.table := by
  unfold Protection.lowered
  simp only
  split <;> rfl

/-- Only ACTIONS and the resets write the action table (R152). -/
theorem ActionTable.sound_kept : Protection.Kept fun p => p.table.Sound where
  reset := defaultActions_sound
  accepted p h := by rwa [Protection.accepted_table]
  pended p x h := by
    unfold Protection.pended
    split
    · exact h
    · rwa [Protection.accepted_table]
  cleared _ _ h := h
  lowered p target _ h := by rwa [Protection.lowered_table]
  levels _ _ _ h := by rwa [Protection.accepted_table]
  actions _ _ sound _ := sound

/-- The actions in force do not speak of D, so the lemmas that bound it serve with D at 0. -/
theorem State.ActionsInForce.limited {s : State} (h : s.ActionsInForce) :
    State.Limited { s with light := { s.light with d := 0 } } :=
  ⟨h.of_same, Nat.zero_le _⟩

theorem State.ActionsInForce.checkEnds {s : State} (h : s.ActionsInForce) (passed : Bool) :
    (s.checkEnds passed).ActionsInForce := by
  unfold State.checkEnds
  simp only
  split
  · split
    · exact h.of_same
    · exact (State.ripple_makePending _ _).inForce h.of_same
  · exact h

theorem State.ActionsInForce.linkLoss {s : State} (h : s.ActionsInForce) : s.linkLoss.ActionsInForce := by
  unfold State.linkLoss
  simp only
  split
  · exact h
  · exact ((State.near_raise _ _).ripple.trans (State.ripple_makePending _ _)).inForce h.of_same

/-- A frame start decides LINK, SIZE and HOST, and steps D; PROT and the limit stay (R15, R119). -/
theorem State.ActionsInForce.inputFrameStart {s : State} (h : s.ActionsInForce) (parity : Parity) (z : Size) :
    (s.inputFrameStart parity z).ActionsInForce := by
  obtain ⟨_, _, _, _, _, e⟩ := s.frameDecided_eq parity z
  have decided : (s.frameDecided parity z).ActionsInForce := by rw [e]; exact h.of_same
  exact decided.of_same

theorem State.ActionsInForce.sendLine {s : State} (h : s.ActionsInForce) : s.sendLine.ActionsInForce := by
  have mutes := s.sendLine_mutes
  obtain ⟨_, e⟩ := s.sendLine_frame
  rw [e] at mutes ⊢
  exact h.of_same (hmute := congrArg Mutes.prot mutes)

/-- An output frame's end writes the light fraction and its heat beside the limit (R21, R123). -/
theorem State.ActionsInForce.frameEnded {s : State} (h : s.ActionsInForce) (l : Nat) :
    State.ActionsInForce { s with
      picture := { s.picture with frame := none, lastLight := l }, light := s.light.frameEnded l } :=
  h.of_same

theorem State.ActionsInForce.closeFrame {s : State} (h : s.ActionsInForce) : s.closeFrame.ActionsInForce := by
  cases hf : s.picture.frame with
  | none => rwa [State.closeFrame_of_none hf]
  | some f => rw [State.closeFrame_eq hf]; exact h.frameEnded _

/-- A LOWER that moves C delivers (R157). -/
theorem State.ActionsInForce.lowerTo {s : State} (h : s.ActionsInForce) (target : Nat) :
    (s.lowerTo target).ActionsInForce := by
  unfold State.lowerTo
  simp only
  split
  · exact h
  · exact State.deliver_inForce _

/-- A new table is delivered at the levels that take their actions from it (R152). -/
theorem State.ActionsInForce.newTable {s : State} (h : s.ActionsInForce) (table : ActionTable) :
    State.ActionsInForce (if 1 ≤ s.prot.c ∧ s.prot.c ≤ 3 then
        State.deliver { s with prot := { s.prot with table := table } }
      else { s with prot := { s.prot with table := table } }) := by
  split
  · exact State.deliver_inForce _
  · rename_i fixed
    have delivered := (h.limited.newTable table).inForce
    rw [if_neg fixed] at delivered
    exact delivered.of_same

/-- The actions in force survive every command, whatever D is. -/
theorem State.inForce_kept : State.PathKept State.ActionsInForce where
  still h hq := h.of_same hq.limit hq.floor hq.lifted hq.lock (by rw [hq.mutes]) hq.c hq.table
  ripple h r := r.inForce h
  powerOn s cause hold := (s.powerOnValues_limited cause hold).inForce
  checkEnds _ passed h := h.checkEnds passed
  frameStart _ parity z h := h.inputFrameStart parity z
  activeLine s xs h := by obtain ⟨_, _, e⟩ := s.activeLine_frame xs; rw [e]; exact h.of_same
  linkLoss _ h := h.linkLoss
  sendLine _ h := h.sendLine
  closeFrame _ h := h.closeFrame
  softReset s _ := s.softReset_limited.inForce
  lowerTo _ target h := h.lowerTo target
  actions _ table h := h.newTable table

/-- Settles O12: the table by the protection unit's operations, the actions in force by a delivery wherever C or the
table of C changes. -/
theorem actionsOfTheLevelStayInForce : Obligations.ActionsOfTheLevelStayInForce :=
  fun _ _ table inForce hstep =>
    ⟨ActionTable.sound_kept.kept.step (P := fun s => s.prot.table.Sound) table hstep,
      State.inForce_kept.kept.step inForce hstep⟩

/-! ### Making a source pending (R148, R150) -/

theorem PerSource.get_set_true (p : PerSource Bool) (x y : Source) : (p.set x true).get y = (p.get y || y == x) := by
  by_cases own : y = x
  · subst own
    simp
  · simp [PerSource.get_set_ne _ _ own, own]

theorem State.accept_of_le {s : State} (h : s.prot.topLevel ≤ s.prot.c) : s.accept = s := if_neg (not_lt.2 h)

theorem State.accept_of_lt {s : State} (h : s.prot.c < s.prot.topLevel) : s.accept =
    (State.raise { s with prot := { s.prot with
      c := s.prot.topLevel, cause := s.prot.causeAt s.prot.topLevel } } .levelChanged).deliver := if_pos h

/-- The part with a source just made pending, before the acceptance (R148). -/
def State.withPending (s : State) (x : Source) : State :=
  State.raise { s with prot := { s.prot with pending := s.prot.pending.set x true } } .sourcePending

theorem State.makePending_of_pending {s : State} {x : Source} (h : s.prot.pending.get x = true) :
    s.makePending x = s := if_pos h

theorem State.makePending_of_clear {s : State} {x : Source} (h : s.prot.pending.get x = false) :
    s.makePending x = (s.withPending x).accept := if_neg (by simp [h])

/-- What an acceptance that raises C leaves at the protection unit, with its event and its delivery (R150). -/
theorem State.accept_rises {s : State} (h : s.prot.c < s.prot.topLevel) :
    s.prot.c < s.accept.prot.c
    ∧ (∀ y, s.accept.prot.pending.get y = true → s.accept.prot.levels.get y ≤ s.accept.prot.c)
    ∧ s.accept.sender.has .levelChanged = true ∧ s.accept.ActionsInForce
    ∧ ∃ y, s.accept.prot.cause = .source y ∧ s.accept.prot.pending.get y = true
        ∧ s.accept.prot.levels.get y = s.accept.prot.c
        ∧ ∀ z, sourceNumber z < sourceNumber y → s.accept.prot.pending.get z = true →
            s.accept.prot.levels.get z ≠ s.accept.prot.c := by
  have asked : s.prot.topLevel ≠ 0 := by omega
  have prot := s.accept_prot
  rw [Protection.accepted_of_lt h] at prot
  rw [prot]
  refine ⟨h, fun _ hy => s.prot.le_topLevel hy, ?_, ?_, s.prot.causeAt_eq _ (s.prot.topLevel_attained asked)⟩
  · rw [State.accept_of_lt h]
    exact (State.ripple_deliver _).sender.has (Sender.has_raise _ _)
  · rw [State.accept_of_lt h]
    exact State.deliver_inForce _

/-- Settles O43: a source newly pending is followed by an acceptance, which raises C where it asks for more. -/
theorem pendingSourceRaisesTheLevel : Obligations.PendingSourceRaisesTheLevel := by
  intro s x t
  refine ⟨State.makePending_of_pending, fun clear => ?_⟩
  have taken : t = (s.withPending x).accept := State.makePending_of_clear clear
  have prot : t.prot = (s.withPending x).prot.accepted := by rw [taken, State.accept_prot]
  have pending : t.prot.pending = s.prot.pending.set x true := by rw [prot, Protection.accepted_pending]; rfl
  have levels : t.prot.levels = s.prot.levels := by rw [prot, Protection.accepted_levels]; rfl
  refine ⟨fun y => by rw [pending, PerSource.get_set_true], levels, by rw [prot, Protection.accepted_table]; rfl,
    ?_, fun covered => ?_, fun above => ?_⟩
  · rw [taken]
    exact (State.ripple_accept _).sender.has (Sender.has_raise _ _)
  · rw [pending, levels] at covered
    exact taken.trans (State.accept_of_le (Protection.topLevel_le_iff.2 covered))
  · rw [pending, levels] at above
    rw [taken]
    exact State.accept_rises (s := s.withPending x) (Protection.lt_topLevel_iff.2 above)

/-! ### The payloads of LEVELS, ACTIONS and CLEAR (R149, R152, R154) -/

theorem upTo_eq_some_iff {top n : Nat} {w : Word} (ht : top < 65536) :
    upTo top w = some n ↔ n ≤ top ∧ w = BitVec.ofNat 16 n := by
  constructor
  · intro h
    obtain ⟨rfl, le⟩ := upTo_eq.1 h
    simp [le]
  · rintro ⟨le, rfl⟩
    exact upTo_ofNat le ht

theorem yesNo_eq_some_iff {w : Word} {b : Bool} : yesNo w = some b ↔ w = flagWord b := by
  constructor
  · intro h
    unfold yesNo at h
    split at h
    · cases h; assumption
    · split at h
      · cases h; assumption
      · cases h
  · rintro rfl
    exact yesNo_flagWord b

/-- A word names a source exactly where it is the source's number (R147). -/
theorem sourceOf_eq_some_iff {w : Word} {x : Source} : sourceOf w = some x ↔ w = BitVec.ofNat 16 (sourceNumber x) := by
  constructor
  · intro h
    have at_number : allSources[sourceNumber x]? = some x := by cases x <;> rfl
    have below : w.toNat < allSources.length := (List.getElem?_eq_some_iff.1 h).1
    have number : w.toNat = sourceNumber x := (List.getElem?_inj below (by decide)).1 (h.trans at_number.symm)
    rw [← number]
    simp
  · rintro rfl
    exact sourceOf_sourceNumber x

theorem oneField_eq_some_iff {α : Type} {f : Word → Option α} {p : List Word} {x : α} :
    oneField f p = some x ↔ ∃ w, p = [w] ∧ f w = some x := by
  constructor
  · intro h
    unfold oneField at h
    split at h
    · exact ⟨_, rfl, h⟩
    · cases h
  · rintro ⟨w, rfl, h⟩
    exact h

/-- Eleven levels of at most 3 are read back, TRIP's beside them as its fixed 4 (R149). -/
theorem levelsFields_words {levels : PerSource Nat} (h : ∀ x, levels.get x ≤ 3) :
    levelsFields ((allSources.drop 1).map fun x => BitVec.ofNat 16 (levels.get x)) = some (levels.set .trip 4) := by
  have fields : allSome (((allSources.drop 1).map fun x => BitVec.ofNat 16 (levels.get x)).map (upTo 3))
      = some ((allSources.drop 1).map levels.get) := by
    rw [allSome_eq, List.map_map, List.map_map]
    exact List.map_congr_left fun x _ => upTo_ofNat (h x) (by decide)
  rw [levelsFields, fields]
  rfl

theorem levelsFields_of_bad {p : List Word} (h : p.length ≠ 11 ∨ ∃ w ∈ p, 3 < w.toNat) : levelsFields p = none := by
  rw [Option.eq_none_iff_forall_ne_some]
  intro levels taken
  simp only [levelsFields, Option.bind_eq_bind, Option.bind_eq_some_iff] at taken
  obtain ⟨fields, given, taken⟩ := taken
  have read : p.map (upTo 3) = fields.map some := allSome_eq.1 given
  rcases h with length | ⟨w, hw, above⟩
  · have same : p.length = fields.length := by simpa using congrArg List.length read
    split at taken
    · exact length same
    · cases taken
  · have mem : upTo 3 w ∈ fields.map some := read ▸ List.mem_map_of_mem hw
    obtain ⟨n, _, e⟩ := List.mem_map.1 mem
    have := upTo_eq.1 e.symm
    omega

/-- The five words of a level's actions (spec 10.8, ACTIONS). -/
def Actions.words (a : Actions) : List Word :=
  [BitVec.ofNat 16 a.limit, BitVec.ofNat 16 a.floor, flagWord a.capLifted, flagWord a.lensLock, flagWord a.mute]

theorem actionsOf_eq_some_iff {limit floor lifted lock mute : Word} {a : Actions} :
    actionsOf limit floor lifted lock mute = some a ↔ a.inRange ∧ [limit, floor, lifted, lock, mute] = a.words := by
  simp only [actionsOf, Option.bind_eq_bind, Option.bind_eq_some_iff, Option.pure_def, Option.some.injEq,
    upTo_eq_some_iff (top := 1000) (by decide), yesNo_eq_some_iff, Actions.inRange, Actions.words, List.cons.injEq, and_true]
  constructor
  · rintro ⟨_, ⟨hl, rfl⟩, _, ⟨hf, rfl⟩, _, rfl, _, rfl, _, rfl, rfl⟩
    exact ⟨⟨hl, hf⟩, rfl, rfl, rfl, rfl, rfl⟩
  · rintro ⟨⟨hl, hf⟩, rfl, rfl, rfl, rfl, rfl⟩
    exact ⟨_, ⟨hl, rfl⟩, _, ⟨hf, rfl⟩, _, rfl, _, rfl, _, rfl, rfl⟩

/-- The fifteen words of an action table (spec 10.8, ACTIONS). -/
def ActionTable.words (t : ActionTable) : List Word := [t.level1, t.level2, t.level3].flatMap Actions.words

/-- ACTIONS takes the words of the tables in range and monotone, and no others (R152). -/
theorem actionsFields_eq_some_iff {p : List Word} {t : ActionTable} :
    actionsFields p = some t ↔ t.Sound ∧ p = t.words := by
  constructor
  · intro h
    refine ⟨actionsFields_sound h, ?_⟩
    unfold actionsFields at h
    split at h
    · simp only [Option.bind_eq_bind, Option.bind_eq_some_iff, actionsOf_eq_some_iff] at h
      obtain ⟨x, ⟨_, hx⟩, y, ⟨_, hy⟩, z, ⟨_, hz⟩, h⟩ := h
      split at h
      · cases h
        simp only [ActionTable.words, List.flatMap_cons, List.flatMap_nil, ← hx, ← hy, ← hz]
        rfl
      · cases h
    · cases h
  · rintro ⟨sound, rfl⟩
    have one := actionsOf_eq_some_iff.2 ⟨sound.one, rfl⟩
    have two := actionsOf_eq_some_iff.2 ⟨sound.two, rfl⟩
    have three := actionsOf_eq_some_iff.2 ⟨sound.three, rfl⟩
    simp only [ActionTable.words, Actions.words, List.flatMap_cons, List.flatMap_nil, List.cons_append,
      List.nil_append, actionsFields, one, two, three, Option.bind_eq_bind, Option.bind_some]
    exact if_pos ⟨sound.lower, sound.upper⟩

/-! ### The sensors' conditions (R107, R108, R155) -/

theorem any_allSensors_iff {f : Sensor → Bool} : allSensors.any f = true ↔ ∃ x, f x = true := by
  have all : ∀ x : Sensor, x ∈ allSensors := fun x => by cases x <;> decide
  simp only [List.any_eq_true, all, true_and]

theorem SensorUnit.trips_iff {u : SensorUnit} :
    u.trips = true ↔ ∃ r, u.reading = some r ∧ u.fault = false ∧ (u.trip : Int) ≤ r := by
  unfold SensorUnit.trips
  cases u.reading <;> simp

theorem SensorUnit.meetsRelease_iff {u : SensorUnit} :
    u.meetsRelease = true ↔ ∃ r, u.reading = some r ∧ (u.trip : Int) - 40 ≤ r := by
  unfold SensorUnit.meetsRelease SensorUnit.release
  cases u.reading <;> simp

theorem State.gateClosed_eq_false_iff {s : State} :
    s.gateClosed = false ↔ ∀ x r, (s.sensor x).reading = some r → r < ((s.sensor x).trip : Int) - 40 := by
  rw [← Bool.not_eq_true, State.gateClosed, any_allSensors_iff]
  simp only [SensorUnit.meetsRelease_iff]
  push Not
  rfl

theorem State.clearSource_of_persists {s : State} {x : Source} (h : s.persists x = true) : s.clearSource x = s :=
  if_pos h

theorem State.clearSource_of_past {s : State} {x : Source} (h : ¬ s.persists x = true) :
    s.clearSource x = { s with prot := { s.prot with pending := s.prot.pending.set x false } } := if_neg h

/-- Settles O45: the fields of each payload, then what the body stores, delivers or clears. -/
theorem levelsActionsAndClear : Obligations.LevelsActionsAndClear := by
  intro s e p
  refine ⟨fun executes => ⟨?_, fun bad => exec_of_noFields rfl executes (levelsFields_of_bad bad)⟩, fun executes => ?_,
    fun executes => ?_⟩
  · rintro levels range rfl
    exact exec_of_fields rfl executes (levelsFields_words range) rfl
  · refine ⟨fun table sound given => ?_, fun bad => ?_⟩
    · refine exec_of_fields rfl executes (actionsFields_eq_some_iff.2 ⟨sound, given⟩) (Prod.ext ?_ rfl)
      have levels : 1 ≤ s.prot.c ∧ s.prot.c ≤ 3 ↔ s.prot.c = 1 ∨ s.prot.c = 2 ∨ s.prot.c = 3 := by omega
      simp only [levels]
    · refine exec_of_noFields rfl executes (Option.eq_none_iff_forall_ne_some.2 fun table taken => ?_)
      obtain ⟨sound, given⟩ := actionsFields_eq_some_iff.1 taken
      exact bad table sound given
  · intro persists
    have condition : ∀ x, s.persists x = true ↔ persists x := by
      intro x
      cases x with
      | trip => exact any_allSensors_iff.trans (exists_congr fun _ => SensorUnit.trips_iff)
      | sensorFault => exact any_allSensors_iff (f := fun i => (s.sensor i).fault)
      | stallIntake | stallLight | stallExhaust => exact beq_iff_eq
      | linkLoss => exact (Bool.not_eq_true' _).to_iff
      | lensFault | memoryFault => exact Bool.false_eq_true.to_iff
      | tempLaser | tempPanel | tempDump | tempLens => exact .rfl
    refine ⟨fun x given => ?_, fun bad => ?_⟩
    · have fields : oneField sourceOf p = some x := oneField_eq_some_iff.2 ⟨_, given, sourceOf_sourceNumber x⟩
      have cleared : exec .clear s = .next ((s.clearSource x).ended e .done) := exec_of_fields rfl executes fields rfl
      rw [cleared, ← condition]
      exact ⟨fun holds => by rw [State.clearSource_of_persists holds],
        fun past => by rw [State.clearSource_of_past past]⟩
    · refine exec_of_noFields rfl executes (Option.eq_none_iff_forall_ne_some.2 fun x taken => ?_)
      obtain ⟨w, rfl, named⟩ := oneField_eq_some_iff.1 taken
      exact bad x (by rw [sourceOf_eq_some_iff.1 named])

/-! ### LOWER (R156, R157) -/

section Lowering

variable {s : State} {target : Nat}

/-- A pending source of C's own level holds C (R157). -/
theorem State.lowerTo_of_held (h : max target s.prot.topLevel = s.prot.c) : s.lowerTo target = s := if_pos h

/-- With no pending source above the target, C becomes the target (R157). -/
theorem State.lowerTo_of_reached (below : target < s.prot.c) (h : s.prot.topLevel ≤ target) : s.lowerTo target =
    State.deliver (State.raise { s with prot := { s.prot with
      c := target, cause := if target = 0 then .none else .host } } .levelChanged) := by
  unfold State.lowerTo
  simp only [max_eq_left h, if_neg below.ne, if_neg (lt_irrefl target)]
  cases target <;> rfl

/-- With one, C stops at the highest level asked for (R157). -/
theorem State.lowerTo_of_stopped (above : target < s.prot.topLevel) (h : s.prot.topLevel ≠ s.prot.c) :
    s.lowerTo target = State.deliver (State.raise { s with prot := { s.prot with
      c := s.prot.topLevel, cause := s.prot.causeAt s.prot.topLevel } } .levelChanged) := by
  unfold State.lowerTo
  simp only [max_eq_right above.le, if_neg h, if_pos above]

end Lowering

/-- Settles O46: the checks in order, then the highest of the target and the pending sources' levels. -/
theorem lowerStopsAtPendingSources : Obligations.LowerStopsAtPendingSources := by
  intro s e
  refine ⟨fun p length executes => exec_of_noFields rfl executes (oneField_of_length length),
    fun w executes => ?_⟩
  intro open_
  have gate : open_ ↔ ¬ (s.prot.c = 4 ∧ s.gateClosed = true) := by
    rw [not_and_or, Bool.not_eq_true, State.gateClosed_eq_false_iff]
  refine ⟨fun above => exec_of_fields rfl executes rfl (if_pos above), fun below shut => ?_, fun below opened => ?_⟩
  · refine exec_of_fields rfl executes rfl ((if_neg (not_le.2 below)).trans (if_pos ?_))
    exact not_not.1 (mt gate.2 shut)
  · have lowered : ∀ t, s.lowerTo w.toNat = t → exec .lower s = .next (t.ended e .done) := by
      rintro t rfl
      exact exec_of_fields rfl executes rfl ((if_neg (not_le.2 below)).trans (if_neg (gate.1 opened)))
    refine ⟨?_, fun reached => lowered _ ?_, fun x hx stopped moves top lowest => lowered _ ?_⟩
    · rintro ⟨x, hx, holds⟩ sound
      have top : s.prot.topLevel = s.prot.c :=
        holds ▸ Protection.topLevel_eq hx fun y hy => holds.symm ▸ sound.noneAbove y hy
      exact lowered s (State.lowerTo_of_held (by rw [top, max_eq_right below.le]))
    · exact State.lowerTo_of_reached below (Protection.topLevel_le_iff.2 reached)
    · have asked : s.prot.topLevel = s.prot.levels.get x := Protection.topLevel_eq hx top
      have cause := Protection.causeAt_of_lowest hx rfl lowest
      rw [State.lowerTo_of_stopped (asked ▸ stopped) (asked ▸ moves.ne), asked, cause]

end Sys2Proof.Machine

/-! # Messages, queues and replies

The operations of the intake and of the reply sender, then what every command may do to these two, to the waiting
commands, to the pins and to the hold, said once for all commands. -/

namespace Sys2Proof

/-- The commands that bring the level of an input pin of an axis (R77, R79, R182). -/
def Instr.MovesPins (c : Instr) : Prop :=
  (∃ a, c = .limitSwitchClose a) ∨ (∃ a, c = .limitSwitchOpen a) ∨ ∃ a on, c = .driverFault a on

/-- The commands of the reset inputs (R178). -/
def Instr.Restarts (c : Instr) : Prop := c = .powerOnReset ∨ c = .supplyDipReset ∨ ∃ i, c = .heldInReset i

end Sys2Proof

namespace Sys2Proof.Machine

/-! ### The next message for the executor (R166) -/

@[simp] theorem Intake.takeNext_free (i : Intake) : i.takeNext.free = i.free := by
  unfold Intake.takeNext; split <;> rfl

@[simp] theorem Intake.takeNext_replies (i : Intake) : i.takeNext.replies = i.replies := by
  unfold Intake.takeNext; split <;> rfl

@[simp] theorem Intake.takeNext_dropped (i : Intake) : i.takeNext.dropped = i.dropped := by
  unfold Intake.takeNext; split <;> rfl

theorem Intake.takeNext_of_busy {i : Intake} {x : Envelope} (h : i.slot = some x) : i.takeNext = i := by
  simp [Intake.takeNext, h]

section Free

variable {i : Intake} (free : i.slot = none)

include free

theorem Intake.takeNext_of_urgent {x : Envelope} {rest : List Envelope} (h : i.urgent = x :: rest) :
    i.takeNext = { i with slot := some x, urgent := rest } := by
  simp [Intake.takeNext, free, h]

theorem Intake.takeNext_of_motion {x : Envelope} {rest : List Envelope} (hu : i.urgent = [])
    (h : i.motion = x :: rest) : i.takeNext = { i with slot := some x, motion := rest } := by
  simp [Intake.takeNext, free, hu, h]

theorem Intake.takeNext_of_setup {x : Envelope} {rest : List Envelope} (hu : i.urgent = []) (hm : i.motion = [])
    (h : i.setup = x :: rest) : i.takeNext = { i with slot := some x, setup := rest } := by
  simp [Intake.takeNext, free, hu, hm, h]

theorem Intake.takeNext_of_empty (hu : i.urgent = []) (hm : i.motion = []) (h : i.setup = []) : i.takeNext = i := by
  simp [Intake.takeNext, free, hu, hm, h]

end Free

theorem Intake.queued_eq_zero_iff {i : Intake} : i.queued = 0 ↔ i.urgent = [] ∧ i.motion = [] ∧ i.setup = [] := by
  simp only [Intake.queued, Nat.add_eq_zero_iff, List.length_eq_zero_iff, and_assoc]

/-! ### The envelopes and their queues (R164 to R167) -/

/-- The three queues hold their own classes (R165). -/
structure Intake.Sorted (i : Intake) : Prop where
  urgent : ∀ e ∈ i.urgent, classOf e.kind = .urgent
  motion : ∀ e ∈ i.motion, classOf e.kind = .motion
  setup : ∀ e ∈ i.setup, classOf e.kind = .setup

/-- A message joins the queue of its own class (R164). -/
theorem Intake.Sorted.enqueue {i : Intake} (h : i.Sorted) (e : Envelope) : (i.enqueue e).Sorted := by
  have joined : ∀ {l : List Envelope} {c : MsgClass}, (∀ x ∈ l, classOf x.kind = c) → classOf e.kind = c →
      ∀ x ∈ l ++ [e], classOf x.kind = c := by
    intro l c hl he x hx
    rcases List.mem_append.1 hx with hx | hx
    · exact hl x hx
    · exact List.mem_singleton.1 hx ▸ he
  unfold Intake.enqueue
  split
  · exact ⟨joined h.urgent (by assumption), h.motion, h.setup⟩
  · exact ⟨h.urgent, joined h.motion (by assumption), h.setup⟩
  · exact ⟨h.urgent, h.motion, joined h.setup (by assumption)⟩

/-- The executor takes from the head, so what stays in a queue stood there before (R166). -/
theorem Intake.Sorted.takeNext {i : Intake} (h : i.Sorted) : i.takeNext.Sorted := by
  obtain ⟨urgent, motion, setup⟩ := h
  unfold Intake.takeNext
  split
  · exact ⟨urgent, motion, setup⟩
  · rename_i head
    exact ⟨fun x hx => urgent x (by rw [head]; exact .tail _ hx), motion, setup⟩
  · rename_i head
    exact ⟨urgent, fun x hx => motion x (by rw [head]; exact .tail _ hx), setup⟩
  · rename_i head
    exact ⟨urgent, motion, fun x hx => setup x (by rw [head]; exact .tail _ hx)⟩
  · exact ⟨urgent, motion, setup⟩

/-- Once the executor has looked, sorted queues and 32 envelopes are the whole promise. -/
theorem Intake.Sorted.sound_takeNext {i : Intake} (h : i.Sorted) (total : i.total = Config.envelopes) :
    i.takeNext.Sound where
  total := i.total_takeNext.trans total
  urgent := h.takeNext.urgent
  motion := h.takeNext.motion
  setup := h.takeNext.setup
  taken := i.taken_takeNext

theorem resetIntake_sound : resetIntake.Sound where
  total := rfl
  urgent := by simp [resetIntake]
  motion := by simp [resetIntake]
  setup := by simp [resetIntake]
  taken _ := rfl

/-- The count of dropped messages is not an envelope. -/
theorem Intake.Sound.withDropped {i : Intake} (h : i.Sound) (n : Nat) : Intake.Sound { i with dropped := n } :=
  ⟨h.total, h.urgent, h.motion, h.setup, h.taken⟩

/-- A good message takes its envelope out of the pool (R164). -/
theorem Intake.Sound.arrived {i : Intake} (h : i.Sound) (free : i.free ≠ 0) (e : Envelope) :
    (Intake.enqueue { i with free := i.free - 1 } e).takeNext.Sound := by
  have sorted : Intake.Sorted { i with free := i.free - 1 } := ⟨h.urgent, h.motion, h.setup⟩
  refine (sorted.enqueue e).sound_takeNext ?_
  have total := h.total
  rw [Intake.total_enqueue]
  simp only [Intake.total, Intake.queued] at total ⊢
  omega

/-- What `finish` hands to the executor: the slot empty, the envelope in the pool or on the reply queue (R167). -/
def Intake.returned (i : Intake) (e : Envelope) (o : MsgOutcome) : Intake :=
  if o = .done ∧ e.replyOnDone = false then { i with slot := none, free := i.free + 1 }
  else { i with slot := none, replies := i.replies ++ [⟨e.kind, e.tag, o, 0⟩] }

theorem Intake.finish_eq (i : Intake) (e : Envelope) (o : MsgOutcome) : i.finish e o = (i.returned e o).takeNext := by
  unfold Intake.finish Intake.returned
  split <;> rfl

/-- An envelope returned leaves the slot empty and the queues and the count of dropped messages alone. -/
theorem Intake.returned_leaves (i : Intake) (e : Envelope) (o : MsgOutcome) : (i.returned e o).slot = none
    ∧ (i.returned e o).urgent = i.urgent ∧ (i.returned e o).motion = i.motion ∧ (i.returned e o).setup = i.setup
    ∧ (i.returned e o).dropped = i.dropped := by
  unfold Intake.returned
  split <;> exact ⟨rfl, rfl, rfl, rfl, rfl⟩

theorem Intake.Sound.finished {i : Intake} (h : i.Sound) {x : Envelope} (slot : i.slot = some x) (e : Envelope)
    (o : MsgOutcome) : (i.finish e o).Sound := by
  obtain ⟨_, urgent, motion, setup, _⟩ := i.returned_leaves e o
  have total : (i.returned e o).total = Config.envelopes := by
    rw [← Intake.total_takeNext, ← Intake.finish_eq, Intake.total_finish slot, h.total]
  rw [Intake.finish_eq]
  exact Intake.Sorted.sound_takeNext ⟨urgent ▸ h.urgent, motion ▸ h.motion, setup ▸ h.setup⟩ total

/-- A part of the head's reply that is not its last: the reply keeps its place (R169). -/
theorem Intake.Sound.partSent {i : Intake} (h : i.Sound) {r : Reply} {rest : List Reply} (head : i.replies = r :: rest)
    (q : Reply) : Intake.Sound { i with replies := q :: rest } := by
  refine ⟨?_, h.urgent, h.motion, h.setup, h.taken⟩
  have total := h.total
  simpa only [Intake.total, Intake.queued, head, List.length_cons] using total

/-- The last part frees the envelope (R169). -/
theorem Intake.Sound.replySent {i : Intake} (h : i.Sound) {r : Reply} {rest : List Reply}
    (head : i.replies = r :: rest) : Intake.Sound { i with replies := rest, free := i.free + 1 } := by
  refine ⟨?_, h.urgent, h.motion, h.setup, h.taken⟩
  have total := h.total
  simp only [Intake.total, Intake.queued, head, List.length_cons] at total ⊢
  omega

/-- What a command can do to the intake: the dropped messages counted or cleared, a message arrived (R164), an execution
finished (R167), a part of a reply sent (R169), or everything restarted (R176). -/
inductive Intake.Next (i : Intake) : Intake → Prop
  | counted (n : Nat) : i.Next { i with dropped := n }
  | arrived (free : i.free ≠ 0) (e : Envelope) : i.Next (Intake.enqueue { i with free := i.free - 1 } e).takeNext
  | finished {e : Envelope} (slot : i.slot = some e) (o : MsgOutcome) (n : Nat) :
      i.Next (Intake.finish { i with dropped := n } e o)
  | partSent {r : Reply} {rest : List Reply} (head : i.replies = r :: rest) :
      i.Next { i with replies := { r with sent := r.sent + 1 } :: rest }
  | replySent {r : Reply} {rest : List Reply} (head : i.replies = r :: rest) :
      i.Next { i with replies := rest, free := i.free + 1 }
  | restarted : i.Next resetIntake

theorem Intake.Next.of_eq {i j : Intake} (h : j = i) : i.Next j := by rw [h]; exact .counted i.dropped

theorem Intake.Next.sound {i j : Intake} (h : i.Next j) (hi : i.Sound) : j.Sound := by
  cases h with
  | counted n => exact hi.withDropped n
  | arrived free e => exact hi.arrived free e
  | finished slot o n => exact (hi.withDropped n).finished slot _ o
  | partSent head => exact hi.partSent head _
  | replySent head => exact hi.replySent head
  | restarted => exact resetIntake_sound

/-! ### The flags and the notice (R170 to R173) -/

theorem Sender.attention_iff {x : Sender} : x.attention = true ↔ x.flags &&& x.mask ≠ 0#32 := bne_iff_ne

/-- Some masked-in flag is set: one bit stands in both words. -/
theorem Sender.attention_iff_bit {x : Sender} :
    x.attention = true ↔ ∃ i, x.flags.getLsbD i = true ∧ x.mask.getLsbD i = true := by
  rw [Sender.attention_iff]
  refine ⟨fun some => ?_, ?_⟩
  · by_contra none
    refine some (BitVec.eq_of_getLsbD_eq fun i _ => ?_)
    rw [BitVec.getLsbD_and, BitVec.getLsbD_zero, ← Bool.not_eq_true, Bool.and_eq_true]
    exact fun both => none ⟨i, both⟩
  · rintro ⟨i, hf, hm⟩ zero
    have bit := congrArg (·.getLsbD i) zero
    simp [hf, hm] at bit

/-- After a raise a masked-in flag is set where one was, or where the flag raised is masked in. -/
theorem Sender.attention_raise (x : Sender) (e : EventFlag) :
    (x.raise e).attention = true ↔ x.attention = true ∨ x.mask.getLsbD (flagBit e) = true := by
  have inside := flagBit_lt e
  simp only [Sender.attention_iff_bit, Sender.raise_mask, Sender.raise_flags, BitVec.getLsbD_or, BitVec.getLsbD_twoPow,
    Bool.or_eq_true, Bool.and_eq_true, decide_eq_true_eq, inside, true_and]
  constructor
  · rintro ⟨i, hf | rfl, hm⟩
    · exact .inl ⟨i, hf, hm⟩
    · exact .inr hm
  · rintro (⟨i, hf, hm⟩ | hm)
    · exact ⟨i, .inl hf, hm⟩
    · exact ⟨_, .inr rfl, hm⟩

/-- The notice after a raise (R171): QUEUED from NONE where the flag was clear and is masked in. -/
theorem Sender.raise_notice (x : Sender) (e : EventFlag) : (x.raise e).notice =
    if x.has e = false ∧ x.notice = .none ∧ x.mask.getLsbD (flagBit e) = true then .queued else x.notice := by
  unfold Sender.raise
  cases h : x.has e <;> simp

/-- Every flag's bit is one of those that name a flag (spec 10.8). -/
theorem twoPow_flagBit_within (e : EventFlag) : BitVec.twoPow 32 (flagBit e) &&& ~~~ flagBits = 0#32 := by
  cases e with
  | moveDone a | stopped a | axisFault a | slip a | homeDone a | homeFailed a => cases a <;> decide
  | _ => decide

theorem flagsOf_within (x y : Word) : flagsOf x y &&& ~~~ flagBits = 0#32 := by
  rw [flagsOf, BitVec.and_assoc, BitVec.and_not_self]
  exact BitVec.and_zero

theorem Sender.Sound.raise {x : Sender} (h : x.Sound) (e : EventFlag) : (x.raise e).Sound where
  flags := by rw [Sender.raise_flags, BitVec.and_or_distrib_right, h.flags, twoPow_flagBit_within, BitVec.or_zero]
  mask := by rw [Sender.raise_mask]; exact h.mask
  quiet none := by
    rw [Sender.raise_notice] at none
    rw [← Bool.not_eq_true, Sender.attention_raise]
    split at none
    · cases none
    · rename_i silent
      have still : ¬ x.attention = true := by rw [h.quiet none]; decide
      rintro (attention | masked)
      · exact still attention
      · have set : x.has e = true := Bool.of_not_eq_false fun clear => silent ⟨clear, none, masked⟩
        exact still (Sender.attention_iff_bit.2 ⟨_, set, masked⟩)
  queued queued := by
    rw [Sender.raise_notice] at queued
    rw [Sender.attention_raise]
    split at queued
    · rename_i raised
      obtain ⟨_, _, masked⟩ := raised
      exact .inr masked
    · exact .inl (h.queued queued)

theorem Sender.Sound.withLane {x : Sender} (h : x.Sound) (lane : Option (List Word)) :
    Sender.Sound { x with laneOut := lane } := ⟨h.flags, h.mask, h.quiet, h.queued⟩

/-- A notice SENT is owed nothing until an acknowledgement (R171). -/
theorem Sender.Sound.noticed {x : Sender} (h : x.Sound) (lane : Option (List Word)) :
    Sender.Sound { x with notice := .sent, laneOut := lane } := ⟨h.flags, h.mask, nofun, nofun⟩

theorem noticeOf_eq_none {owed : Bool} : (if owed then Notice.queued else .none) = .none ↔ owed = false := by
  cases owed <;> decide

theorem noticeOf_eq_queued {owed : Bool} : (if owed then Notice.queued else .none) = .queued ↔ owed = true := by
  cases owed <;> decide

/-- The notice that an acknowledgement leaves follows the flags left set (R171, R172). -/
theorem Sender.Sound.acknowledged {x : Sender} (h : x.Sound) (named : BitVec 32) :
    (Sender.afterAck { x with flags := x.flags &&& ~~~ named }).Sound where
  flags := by
    change x.flags &&& ~~~ named &&& ~~~ flagBits = 0#32
    rw [BitVec.and_assoc, BitVec.and_comm (~~~ named), ← BitVec.and_assoc, h.flags, BitVec.zero_and]
  mask := h.mask
  quiet none := noticeOf_eq_none.1 none
  queued queued := noticeOf_eq_queued.1 queued

/-- The notice that a new mask leaves, unless it is SENT already, follows the flags masked in (R171, R173). -/
theorem Sender.Sound.masked {x : Sender} (h : x.Sound) {mask : BitVec 32} (within : mask &&& ~~~ flagBits = 0#32) :
    (Sender.afterMask { x with mask := mask }).Sound where
  flags := h.flags
  mask := within
  quiet none := by
    simp only [Sender.afterMask] at none
    split at none
    · cases none
    · exact noticeOf_eq_none.1 none
  queued queued := by
    simp only [Sender.afterMask] at queued
    split at queued
    · cases queued
    · exact noticeOf_eq_queued.1 queued

theorem powerOnSender_sound : powerOnSender.Sound where
  flags := rfl
  mask := by decide
  quiet _ := rfl
  queued := nofun

/-- What a command can do to the reply sender: flags raised (R170), something sent but the notice, or the notice (R168,
R171), flags acknowledged (R172), the mask replaced (R173), or everything restarted (R176). -/
inductive Sender.Next (c : Instr) (x : Sender) : Sender → Prop
  | grown {y : Sender} (raised : x.Grows y) : Next c x y
  | spoke (lane : Option (List Word)) : Next c x { x with laneOut := lane }
  | noticed (owed : x.notice = .queued) (lane : Option (List Word)) :
      Next c x { x with notice := .sent, laneOut := lane }
  | acknowledged (named : BitVec 32) (ack : c = .eventAck) :
      Next c x (Sender.afterAck { x with flags := x.flags &&& ~~~ named })
  | masked {mask : BitVec 32} (within : mask &&& ~~~ flagBits = 0#32) :
      Next c x (Sender.afterMask { x with mask := mask })
  | restarted {y : Sender} (reset : c.Restarts ∨ c = .softReset) (lane : Option (List Word))
      (raised : Sender.Grows { powerOnSender with laneOut := lane } y) : Next c x y

theorem Sender.Next.sound {c : Instr} {x y : Sender} (h : Sender.Next c x y) (hx : x.Sound) : y.Sound := by
  cases h with
  | grown raised => exact raised.keeps (fun _ e h => h.raise e) hx
  | spoke lane => exact hx.withLane lane
  | noticed _ lane => exact hx.noticed lane
  | acknowledged named _ => exact hx.acknowledged named
  | masked within => exact hx.masked within
  | restarted _ lane raised => exact raised.keeps (fun _ e h => h.raise e) (powerOnSender_sound.withLane lane)

/-- A flag stays set but for an acknowledgement and the resets (R170). -/
theorem Sender.Next.has {c : Instr} {x y : Sender} (h : Sender.Next c x y) (ack : c ≠ .eventAck) (soft : c ≠ .softReset)
    (reset : ¬ c.Restarts) {e : EventFlag} (set : x.has e = true) : y.has e = true := by
  cases h with
  | grown raised => exact raised.has set
  | spoke _ | noticed _ _ | masked _ => exact set
  | acknowledged _ isAck => exact absurd isAck ack
  | restarted isReset _ _ => exact absurd isReset (not_or.2 ⟨reset, soft⟩)

/-! ### What every command may do -/

/-- `t` has the waiting commands, the pins, the hold and the intake of `s`, and differs at the reply sender by flags
raised alone. -/
structure State.Apart (s t : State) : Prop where
  pending : t.pending = s.pending := by rfl
  pins : t.pins = s.pins := by rfl
  hold : t.hold = s.hold := by rfl
  intake : t.intake = s.intake := by rfl
  sender : s.sender.Grows t.sender := by exact .refl _

theorem State.Apart.trans {s t u : State} (h : s.Apart t) (g : t.Apart u) : s.Apart u :=
  ⟨g.pending.trans h.pending, g.pins.trans h.pins, g.hold.trans h.hold, g.intake.trans h.intake,
    h.sender.trans g.sender⟩

theorem State.Ripple.apart {s t : State} (r : s.Ripple t) : s.Apart t := ⟨r.pending, r.pins, r.hold, r.intake, r.sender⟩

theorem State.Near.apart {s t : State} (n : s.Near t) : s.Apart t := n.ripple.apart

/-- `t` is what the command `c` leaves of `s`, as far as the waiting commands, the pins, the hold, the envelopes and the
reply sender go. -/
structure State.CarriedOut (c : Instr) (s t : State) : Prop where
  pending : t.pending = s.pending := by rfl
  pins : ¬ c.MovesPins → t.pins = s.pins := by exact fun _ => rfl
  hold : ¬ c.Restarts → t.hold = s.hold := by exact fun _ => rfl
  intake : s.intake.Next t.intake := by exact .of_eq rfl
  sender : Sender.Next c s.sender t.sender := by exact .grown (.refl _)

theorem State.Apart.carriedOut {s t : State} (h : s.Apart t) (c : Instr) : s.CarriedOut c t :=
  ⟨h.pending, fun _ => h.pins, fun _ => h.hold, .of_eq h.intake, .grown h.sender⟩

theorem State.Apart.afterPin {c : Instr} {s t : State} {a : Axis} {p : AxisPins} (h : (s.setPin a p).Apart t)
    (moves : c.MovesPins) : s.CarriedOut c t :=
  ⟨h.pending, fun still => absurd moves still, fun _ => h.hold, .of_eq h.intake, .grown h.sender⟩

/-- An event, on the state that holds the level it brings: nothing more while the part is held (R178). -/
theorem whenReleased_carriedOut {c : Instr} {s q : State} {f : State → State} (arm : exec c s = whenReleased q f)
    (waits : s.CarriedOut c q) (acts : s.CarriedOut c (f q)) : ∃ t, exec c s = .next t ∧ s.CarriedOut c t := by
  refine ⟨_, arm, ?_⟩
  split
  · exact waits
  · exact acts

theorem State.Apart.event {c : Instr} {s : State} {f : State → State} (arm : exec c s = whenReleased s f)
    (h : s.Apart (f s)) : ∃ t, exec c s = .next t ∧ s.CarriedOut c t :=
  whenReleased_carriedOut arm {} (h.carriedOut c)

theorem State.Apart.pinEvent {c : Instr} {s : State} {f : State → State} {a : Axis} {p : AxisPins}
    (arm : exec c s = whenReleased (s.setPin a p) f) (moves : c.MovesPins)
    (h : (s.setPin a p).Apart (f (s.setPin a p))) : ∃ t, exec c s = .next t ∧ s.CarriedOut c t :=
  whenReleased_carriedOut arm (State.Apart.afterPin (a := a) (p := p) {} moves) (h.afterPin moves)

/-- A message: its body's effect, then the outcome written (R166, R167). -/
theorem runMessage_carriedOut {c : Instr} {s : State} {mine : Envelope → Bool}
    {body : List Word → State → State × MsgOutcome} (arm : exec c s = runMessage s mine body)
    (h : ∀ p, s.CarriedOut c (body p s).1)
    (intake : ∀ p, ∃ n, (body p s).1.intake = { s.intake with dropped := n }) :
    ∃ t, exec c s = .next t ∧ s.CarriedOut c t := by
  refine whenReleased_carriedOut arm {} ?_
  split
  · rename_i e slot
    split
    · obtain ⟨n, counted⟩ := intake e.payload
      have b := h e.payload
      refine ⟨b.pending, b.pins, b.hold, ?_, b.sender⟩
      change s.intake.Next ((body e.payload s).1.intake.finish e _)
      rw [counted]
      exact .finished slot _ n
    · exact {}
  · exact {}

theorem State.Apart.message {c : Instr} {s : State} {mine : Envelope → Bool}
    {body : List Word → State → State × MsgOutcome} (arm : exec c s = runMessage s mine body)
    (h : ∀ p, s.Apart (body p s).1) : ∃ t, exec c s = .next t ∧ s.CarriedOut c t :=
  runMessage_carriedOut arm (fun p => (h p).carriedOut c) fun p => ⟨s.intake.dropped, (h p).intake⟩

/-! #### The commands that reach the envelopes, the notice or every block -/

theorem State.blankingSlot_carriedOut (c : Instr) (s : State) (words : List Word) :
    s.CarriedOut c (s.blankingSlot words) := by
  unfold State.blankingSlot
  simp only
  split
  · exact {}
  · split
    · exact {}
    · exact {}
    · unfold State.arrive
      split
      · exact { intake := .counted _, sender := .grown (Sender.grows_raise _ _) }
      · rename_i free
        exact { intake := .arrived free _ }

theorem State.send_carriedOut (c : Instr) (s : State) : s.CarriedOut c s.send := by
  unfold State.send
  split
  · exact { sender := .noticed (by assumption) _ }
  · split
    · exact { sender := .spoke _ }
    · rename_i r rest head
      refine { intake := ?_, sender := .spoke _ }
      simp only
      split
      · exact .partSent head
      · exact .replySent head

theorem State.eventAck_carriedOut (s : State) (p : List Word) : s.CarriedOut .eventAck (eventAckBody p s).1 :=
  fieldsThen_keeps (P := s.CarriedOut .eventAck) {} fun _ _ => { sender := .acknowledged _ rfl }

theorem State.eventMask_carriedOut (s : State) (p : List Word) : s.CarriedOut .eventMask (eventMaskBody p s).1 :=
  fieldsThen_keeps (P := s.CarriedOut .eventMask) {} fun _ _ => { sender := .masked (flagsOf_within _ _) }

theorem State.counters_carriedOut (s : State) (p : List Word) : s.CarriedOut .queryCounters (countersBody p s).1
    ∧ ∃ n, (countersBody p s).1.intake = { s.intake with dropped := n } := by
  refine fieldsThen_keeps (P := fun t => s.CarriedOut .queryCounters t ∧ ∃ n, t.intake = { s.intake with dropped := n })
    ⟨{}, _, rfl⟩ fun x _ => ?_
  simp only
  split
  · exact ⟨{ intake := .counted 0 }, 0, rfl⟩
  · exact ⟨{}, _, rfl⟩

theorem State.powerOn_carriedOut {c : Instr} (reset : c.Restarts) (s : State) (cause : RestartCause) (hold : Hold) :
    s.CarriedOut c (s.powerOnValues cause hold) where
  hold running := absurd reset running
  intake := .restarted
  sender := .restarted (.inl reset) none (.refl _)

theorem State.softReset_carriedOut (s : State) : s.CarriedOut .softReset s.softReset := by
  have apart : s.softAccepted.Apart s.softReset := by
    rw [State.softReset_eq]
    split
    · exact {}
    · exact (State.near_raise _ _).apart.trans (State.ripple_makePending _ _).apart
  refine ⟨apart.pending, fun _ => apart.pins, fun _ => apart.hold, ?_, .restarted (.inr rfl) _ apart.sender⟩
  rw [apart.intake]
  exact .restarted

/-- SOFT_RESET acts where the executor slot holds it (R184). -/
theorem exec_softReset_carriedOut (s : State) : ∃ t, exec .softReset s = .next t ∧ s.CarriedOut .softReset t := by
  refine ⟨_, rfl, ?_⟩
  beta_reduce
  split
  · exact {}
  · split
    · split
      · exact s.softReset_carriedOut
      · exact {}
    · exact {}

/-- With the ready line low nothing is sent (R168). -/
theorem exec_sendOpportunity_carriedOut (ready : Bool) (s : State) :
    ∃ t, exec (.sendOpportunity ready) s = .next t ∧ s.CarriedOut (.sendOpportunity ready) t := by
  refine ⟨_, rfl, ?_⟩
  beta_reduce
  split
  · exact {}
  · split
    · exact s.send_carriedOut _
    · exact { sender := .spoke none }

/-! #### The other events -/

theorem State.apart_checkEnds (s : State) (passed : Bool) : s.Apart (s.checkEnds passed) := by
  obtain ⟨_, _, r⟩ := s.checkEnds_effect passed
  exact .trans {} r.apart

theorem State.apart_inputFrameStart (s : State) (parity : Parity) (z : Size) :
    s.Apart (s.inputFrameStart parity z) := by
  obtain ⟨_, _, _, _, _, _, raised, e⟩ := s.inputFrameStart_frame parity z
  rw [e]
  exact { sender := raised }

theorem State.apart_linkLoss (s : State) : s.Apart s.linkLoss := by
  obtain ⟨_, _, _, r⟩ := s.linkLoss_effect
  exact .trans {} r.apart

theorem State.apart_endGeneration (s : State) : s.Apart s.endGeneration := by
  obtain ⟨_, _, _, n⟩ := s.endGeneration_effect
  exact .trans {} n.apart

theorem State.apart_driverFault (s : State) (a : Axis) (on : Bool) :
    s.Apart (if on then s.enterFault a .driver else s) := by
  split
  · exact (s.ripple_enterFault a _).apart
  · exact {}

theorem State.apart_fanUpdate (s : State) : s.Apart s.fanUpdate :=
  State.fanUpdate_keeps (P := s.Apart) (R := s.Apart) (fun _ h => h.trans {})
    (fun _ x h => State.judgeFan_keeps (fun _ _ _ h => h.trans {})
      (fun t y h => h.trans (t.ripple_makePending y).apart) x h)
    (fun _ h => h.trans {}) (fun _ _ h => h.trans {}) {}

theorem State.apart_windowEnd (s : State) (x : Sensor) (sample : Int) : s.Apart (s.windowEnd x sample) :=
  State.windowEnd_keeps (P := s.Apart) (fun _ h => h.trans {}) (fun t y h => h.trans (t.ripple_makePending y).apart)
    (fun _ _ h => h.trans {}) (fun t _ h => h.trans t.ripple_startUpkeep.apart) (fun _ h => h.trans {}) {}

/-- Every command answers a next state, and `CarriedOut` says what it may do there. -/
theorem exec_carriedOut (c : Instr) (s : State) : ∃ t, exec c s = .next t ∧ s.CarriedOut c t := by
  cases c with
  | powerOnReset =>
    refine ⟨_, rfl, ?_⟩
    split
    · exact { hold := fun running => absurd (.inl rfl) running }
    · exact State.powerOn_carriedOut (.inl rfl) s _ _
  | supplyDipReset =>
    refine ⟨_, rfl, ?_⟩
    split
    · exact { hold := fun running => absurd (.inr (.inl rfl)) running }
    · exact State.powerOn_carriedOut (.inr (.inl rfl)) s _ _
  | heldInReset i => exact ⟨_, rfl, State.powerOn_carriedOut (.inr (.inr ⟨i, rfl⟩)) s _ _⟩
  | softReset => exact exec_softReset_carriedOut s
  | selfCheckDone passed => exact State.Apart.event (f := (·.checkEnds passed)) rfl (s.apart_checkEnds passed)
  | inputFrameStart parity w h =>
    exact State.Apart.event (exec_inputFrameStart parity w h s) (s.apart_inputFrameStart parity ⟨w.toNat, h.toNat⟩)
  | activeLine xs =>
    exact State.Apart.event (exec_activeLine xs s) (by obtain ⟨_, _, e⟩ := s.activeLine_frame xs; rw [e]; exact {})
  | blankingSlot words =>
    exact whenReleased_carriedOut (f := (·.blankingSlot words)) rfl {} (s.blankingSlot_carriedOut _ words)
  | linkLossTimeout => exact State.Apart.event (f := (·.linkLoss)) rfl s.apart_linkLoss
  | outputLine => exact State.Apart.event (exec_outputLine s) (by obtain ⟨_, e⟩ := s.sendLine_frame; rw [e]; exact {})
  | outputFrameEnd =>
    exact State.Apart.event (exec_outputFrameEnd s) (by obtain ⟨_, _, e⟩ := s.endFrame_frame; rw [e]; exact {})
  | sendOpportunity ready => exact exec_sendOpportunity_carriedOut ready s
  | fanUpdate => exact State.Apart.event (f := (·.fanUpdate)) rfl s.apart_fanUpdate
  | tachPulse x =>
    exact State.Apart.event (f := fun s => s.setFan x { s.fan x with count := (s.fan x).count + 1 }) rfl {}
  | windowEnd x raw => exact State.Apart.event (f := (·.windowEnd x raw.toInt)) rfl (s.apart_windowEnd x raw.toInt)
  | axisStep a => exact State.Apart.event (f := (·.stepAxis a)) rfl (s.ripple_stepAxis a).apart
  | limitSwitchClose a =>
    exact State.Apart.pinEvent (p := { s.pins.get a with switchClosed := true }) (f := (·.switchCloses a)) rfl
      (.inl ⟨a, rfl⟩) (State.ripple_switchCloses _ a).apart
  | limitSwitchOpen a =>
    exact State.Apart.pinEvent (p := { s.pins.get a with switchClosed := false }) (f := (·.switchOpens a)) rfl
      (.inr (.inl ⟨a, rfl⟩)) (State.near_switchOpens _ a).apart
  | homingBoundReached a => exact State.Apart.event (f := (·.boundReached a)) rfl (s.ripple_boundReached a).apart
  | moveTimeout a => exact State.Apart.event (f := (·.legTimeout a)) rfl (s.ripple_legTimeout a).apart
  | driverFault a on =>
    exact State.Apart.pinEvent (p := { s.pins.get a with driverFault := on })
      (f := fun t => if on then t.enterFault a .driver else t) rfl (.inr (.inr ⟨a, on, rfl⟩))
      (State.apart_driverFault _ a on)
  | generationEnd => exact State.Apart.event (f := (·.endGeneration)) rfl s.apart_endGeneration
  | unknownKind => exact State.Apart.message (body := fun _ s => (s, .refused .unknown)) rfl fun _ => {}
  | stop => exact State.Apart.message rfl fun p => (stopBody_effect p s).apart
  | lock => exact State.Apart.message rfl fun p => by obtain ⟨_, n⟩ := lockBody_effect p s; exact .trans {} n.apart
  | unlock => exact State.Apart.message rfl fun p => by obtain ⟨_, n⟩ := unlockBody_effect p s; exact .trans {} n.apart
  | clear => exact State.Apart.message rfl fun p => by obtain ⟨_, e⟩ := clearBody_frame p s; rw [e]; exact {}
  | lower => exact State.Apart.message rfl fun p => by obtain ⟨_, r⟩ := lowerBody_effect p s; exact .trans {} r.apart
  | eventAck => exact runMessage_carriedOut rfl (s.eventAck_carriedOut) fun p => ⟨_, eventAckBody_intake p s⟩
  | move => exact State.Apart.message rfl fun p => (moveBody_effect p s).apart
  | hold => exact State.Apart.message rfl fun p => (holdBody_effect p s).apart
  | resume => exact State.Apart.message rfl fun p => (resumeBody_effect p s).apart
  | returnMove => exact State.Apart.message rfl fun p => (returnBody_effect p s).apart
  | home => exact State.Apart.message rfl fun p => (homeBody_effect p s).apart
  | place => exact State.Apart.message rfl fun p => (placeBody_effect p s).apart
  | placeCancel =>
    exact State.Apart.message rfl fun p => by obtain ⟨_, e⟩ := placeCancelBody_frame p s; rw [e]; exact {}
  | install => exact State.Apart.message rfl fun p => by obtain ⟨_, e⟩ := installBody_frame p s; rw [e]; exact {}
  | pictureMode =>
    exact State.Apart.message rfl fun p => by obtain ⟨_, e⟩ := pictureModeBody_frame p s; rw [e]; exact {}
  | tableOpen => exact State.Apart.message rfl fun p => by obtain ⟨_, e⟩ := tableOpenBody_frame p s; rw [e]; exact {}
  | tableRun => exact State.Apart.message rfl fun p => by obtain ⟨_, e⟩ := tableRunBody_frame p s; rw [e]; exact {}
  | tableCommit =>
    exact State.Apart.message rfl fun p => by obtain ⟨_, e⟩ := tableCommitBody_frame p s; rw [e]; exact {}
  | corners => exact State.Apart.message rfl fun p => by obtain ⟨_, _, e⟩ := cornersBody_frame p s; rw [e]; exact {}
  | lensCal => exact State.Apart.message rfl fun p => by obtain ⟨_, e⟩ := lensCalBody_frame p s; rw [e]; exact {}
  | profile => exact State.Apart.message rfl fun p => by obtain ⟨_, e⟩ := profileBody_frame p s; rw [e]; exact {}
  | focusTable => exact State.Apart.message rfl fun p => by obtain ⟨_, e⟩ := focusTableBody_frame p s; rw [e]; exact {}
  | focusUpkeep =>
    exact State.Apart.message rfl fun p => by obtain ⟨_, e⟩ := focusUpkeepBody_frame p s; rw [e]; exact {}
  | sensorSet => exact State.Apart.message rfl fun p => by obtain ⟨_, e⟩ := sensorSetBody_frame p s; rw [e]; exact {}
  | thresholds => exact State.Apart.message rfl fun p => by obtain ⟨_, e⟩ := thresholdsBody_frame p s; rw [e]; exact {}
  | brightness => exact State.Apart.message rfl fun p => by obtain ⟨_, e⟩ := brightnessBody_frame p s; rw [e]; exact {}
  | fanCurve => exact State.Apart.message rfl fun p => by obtain ⟨_, e⟩ := fanCurveBody_frame p s; rw [e]; exact {}
  | fanLimits => exact State.Apart.message rfl fun p => by obtain ⟨_, e⟩ := fanLimitsBody_frame p s; rw [e]; exact {}
  | quiet => exact State.Apart.message rfl fun p => by obtain ⟨_, e⟩ := quietBody_frame p s; rw [e]; exact {}
  | levels => exact State.Apart.message rfl fun p => by obtain ⟨_, r⟩ := levelsBody_effect p s; exact .trans {} r.apart
  | actions =>
    exact State.Apart.message rfl fun p => by obtain ⟨_, r⟩ := actionsBody_effect p s; exact .trans {} r.apart
  | eventMask => exact runMessage_carriedOut rfl (s.eventMask_carriedOut) fun p => ⟨_, eventMaskBody_intake p s⟩
  | queryCounters =>
    exact runMessage_carriedOut rfl (fun p => (s.counters_carriedOut p).1) fun p => (s.counters_carriedOut p).2
  | queryCause => exact State.Apart.message rfl fun p => by obtain ⟨_, e⟩ := causeBody_frame p s; rw [e]; exact {}
  | queryAxis => exact State.Apart.message rfl fun p => by rw [reportBody_fst]; exact {}
  | queryPlacement => exact State.Apart.message rfl fun p => by rw [reportBody_fst]; exact {}
  | querySensors => exact State.Apart.message rfl fun p => by rw [reportBody_fst]; exact {}
  | queryFans => exact State.Apart.message rfl fun p => by rw [reportBody_fst]; exact {}
  | queryLight => exact State.Apart.message rfl fun p => by rw [reportBody_fst]; exact {}
  | queryProtection => exact State.Apart.message rfl fun p => by rw [reportBody_fst]; exact {}
  | queryEvents => exact State.Apart.message rfl fun p => by rw [reportBody_fst]; exact {}
  | queryTable => exact State.Apart.message rfl fun p => by rw [reportBody_fst]; exact {}
  | queryPicture => exact State.Apart.message rfl fun p => by rw [reportBody_fst]; exact {}

/-- A step is a command carried out on the rest of the queue, or idles. -/
theorem step_carriedOut {s t : State} (h : step s = .next t) :
    t = s ∨ ∃ c rest, State.CarriedOut c { s with pending := rest } t := by
  unfold step at h
  split at h
  · exact .inl (Host.Outcome.next.inj h).symm
  · rename_i c rest _
    obtain ⟨u, e, carried⟩ := exec_carriedOut c { s with pending := rest }
    rw [e] at h
    exact .inr ⟨c, rest, Host.Outcome.next.inj h ▸ carried⟩

/-- Settles O9: what a command can do to the intake keeps the promise. -/
theorem envelopesAreAlways32 : Obligations.EnvelopesAreAlways32 := by
  intro s t sound hstep
  rcases step_carriedOut hstep with rfl | ⟨c, rest, carried⟩
  · exact sound
  · exact carried.intake.sound sound

/-- Settles O10: what a command can do to the reply sender keeps the promise. -/
theorem noticeStandsForMaskedFlags : Obligations.NoticeStandsForMaskedFlags := by
  intro s t sound hstep
  rcases step_carriedOut hstep with rfl | ⟨c, rest, carried⟩
  · exact sound
  · exact carried.sender.sound sound

/-- Settles O2: what every command answers, the pin commands and the resets told apart. -/
theorem noCommandStopsThePart : Obligations.NoCommandStopsThePart := by
  intro c s
  obtain ⟨t, answer, carried⟩ := exec_carriedOut c s
  refine ⟨t, answer, carried.pending, fun close opens fault => carried.pins ?_,
    fun power supply held => carried.hold ?_⟩
  · rintro (⟨a, e⟩ | ⟨a, e⟩ | ⟨a, on, e⟩)
    · exact close a e
    · exact opens a e
    · exact fault a on e
  · rintro (e | e | ⟨i, e⟩)
    · exact power e
    · exact supply e
    · exact held i e

/-- Settles O39: what a command can do to the reply sender, the acknowledgement and the resets left out. -/
theorem flagsAreSticky : Obligations.FlagsAreSticky := by
  intro c s t answer ack soft power supply held x set
  obtain ⟨u, e, carried⟩ := exec_carriedOut c s
  obtain rfl : u = t := Host.Outcome.next.inj (e.symm.trans answer)
  refine carried.sender.has ack soft ?_ set
  rintro (e | e | ⟨i, e⟩)
  · exact power e
  · exact supply e
  · exact held i e

end Sys2Proof.Machine

namespace Sys2Proof.Machine

/-! ### The check word (R163) -/

/-- A data bit equal to the bit shifted out leaves the shift alone. -/
theorem crcBit_same (reg : Word) : crcBit reg (reg.getMsbD 0) = reg <<< 1 := by
  simp [crcBit]

/-- The register fed with the first bits of its own value shifts them out. -/
theorem crcBits_self (w : Word) : ∀ n, n ≤ 16 →
    (List.range n).foldl (fun c i => crcBit c (w.getMsbD i)) w = w <<< n
  | 0, _ => (BitVec.shiftLeft_zero w).symm
  | n + 1, h => by
    have front : w.getMsbD n = (w <<< n).getMsbD 0 := by rw [BitVec.getMsbD_shiftLeft, Nat.zero_add]
    rw [List.range_succ, List.foldl_append, crcBits_self w n (Nat.le_of_succ_le h), List.foldl_cons, List.foldl_nil,
      front, crcBit_same, ← BitVec.shiftLeft_add]

theorem crcWord_self (w : Word) : crcWord w w = 0#16 := by
  rw [crcWord, crcBits_self w 16 le_rfl, BitVec.shiftLeft_eq_zero le_rfl]

/-- Settles O28: the register fed with its own value shifts all its bits out. -/
theorem checkWordClosesToZero : Obligations.CheckWordClosesToZero := by
  intro ws
  rw [checkWord, List.foldl_append]
  exact crcWord_self (checkWord ws)

/-! ### The words of a message slot (R162, spec 10.8) -/

@[simp] theorem highByte_wordOf (hi lo : Byte) : highByte (wordOf hi lo) = hi := BitVec.extractLsb'_append_eq_left

@[simp] theorem lowByte_wordOf (hi lo : Byte) : lowByte (wordOf hi lo) = lo := BitVec.extractLsb'_append_eq_right

theorem readSlot_of_empty (tag : Byte) (rest : List Word) : readSlot (wordOf 0#8 tag :: rest) = .empty := by
  simp [readSlot]

theorem readSlot_of_long {kind flags len : Byte} (tag : Byte) (rest : List Word) (named : kind ≠ 0#8)
    (long : 62 < len.toNat) : readSlot (wordOf kind tag :: wordOf flags len :: rest) = .bad := by
  simp [readSlot, named, Config.payloadWords, long]

/-- The header and the payload of a message, without its check word. -/
def slotBody (e : Envelope) : List Word :=
  wordOf e.kind e.tag :: wordOf e.flags (BitVec.ofNat 8 e.payload.length) :: e.payload

section Body

variable {e : Envelope} (named : e.kind ≠ 0#8) (fits : e.payload.length ≤ 62)

include named fits

/-- A body that fits is read back whole behind its own check word. -/
theorem readSlot_of_checked (rest : List Word) :
    readSlot (slotBody e ++ checkWord (slotBody e) :: rest) = .good e := by
  have length : (BitVec.ofNat 8 e.payload.length).toNat = e.payload.length := Nat.mod_eq_of_lt (by omega)
  simp [readSlot, slotBody, named, length, Config.payloadWords, Nat.not_lt.2 fits]

theorem readSlot_of_unchecked {check : Word} (differs : check ≠ checkWord (slotBody e)) (rest : List Word) :
    readSlot (slotBody e ++ check :: rest) = .bad := by
  have length : (BitVec.ofNat 8 e.payload.length).toNat = e.payload.length := Nat.mod_eq_of_lt (by omega)
  simpa [readSlot, slotBody, named, length, Config.payloadWords, Nat.not_lt.2 fits] using differs.symm

end Body

/-- Settles O27: the body of a slot read back, behind its own check word or another. -/
theorem slotWordsAreReadBack : Obligations.SlotWordsAreReadBack := by
  refine ⟨fun e rest named fits => ?_,
    fun e check rest named fits differs => readSlot_of_unchecked named fits differs rest,
    fun kind tag flags len rest named long => readSlot_of_long tag rest named long, readSlot_of_empty⟩
  change readSlot (slotBody e ++ [checkWord (slotBody e)] ++ rest) = .good e
  rw [List.append_assoc, List.singleton_append, readSlot_of_checked named fits]

/-! ### A message slot at the intake (R160, R162, R164, R166) -/

theorem exec_blankingSlot {s : State} (h : s.hold.held = false) (words : List Word) :
    exec (.blankingSlot words) s = .next (s.blankingSlot words) :=
  whenReleased_eq h (·.blankingSlot words)

theorem Intake.enqueue_eq (i : Intake) (e : Envelope) : i.enqueue e = { i with
    urgent := i.urgent ++ if classOf e.kind = .urgent then [e] else []
    motion := i.motion ++ if classOf e.kind = .motion then [e] else []
    setup := i.setup ++ if classOf e.kind = .setup then [e] else [] } := by
  unfold Intake.enqueue
  cases h : classOf e.kind <;> simp

/-- A message that finds the executor idle and no other waiting is taken at once. -/
theorem Intake.takeNext_enqueue_idle {i : Intake} (free : i.slot = none) (none : i.queued = 0) (e : Envelope) :
    (i.enqueue e).takeNext = { i with slot := some e } := by
  obtain ⟨urgent, motion, setup⟩ := Intake.queued_eq_zero_iff.1 none
  rw [Intake.enqueue_eq]
  cases h : classOf e.kind <;> simp [Intake.takeNext, free, urgent, motion, setup]

/-- One that finds it busy joins its queue. -/
theorem Intake.takeNext_enqueue_busy {i : Intake} {x : Envelope} (busy : i.slot = some x) (e : Envelope) :
    (i.enqueue e).takeNext = i.enqueue e :=
  Intake.takeNext_of_busy (by rw [Intake.enqueue_eq]; exact busy)

theorem State.arrive_of_full {s : State} (full : s.intake.free = 0) (e : Envelope) : s.arrive e =
    State.raise { s with intake := { s.intake with dropped := bump s.intake.dropped } } .dropped :=
  if_pos full

section Pool

variable {s : State} (free : s.intake.free ≠ 0)

include free

theorem State.arrive_of_idle (idle : s.intake.slot = none) (none : s.intake.queued = 0) (e : Envelope) : s.arrive e =
    { s with intake := { s.intake with free := s.intake.free - 1, slot := some e } } := by
  have taken := Intake.takeNext_enqueue_idle (i := { s.intake with free := s.intake.free - 1 }) idle none e
  exact (if_neg free).trans (congrArg (fun i => { s with intake := i }) taken)

theorem State.arrive_of_busy {x : Envelope} (busy : s.intake.slot = some x) (e : Envelope) : s.arrive e =
    { s with intake := Intake.enqueue { s.intake with free := s.intake.free - 1 } e } := by
  have waits := Intake.takeNext_enqueue_busy (i := { s.intake with free := s.intake.free - 1 }) busy e
  exact (if_neg free).trans (congrArg (fun i => { s with intake := i }) waits)

end Pool

section Slot

variable {s : State} {words : List Word}

theorem State.blankingSlot_of_passed
    (h : s.link.present = false ∨ 0 < s.link.activeLines ∨ 176 ≤ s.link.blankingSlots) : s.blankingSlot words = s :=
  if_pos h

/-- A slot examined counts among those of its frame (R160). -/
def State.slotCounted (s : State) : State :=
  { s with link := { s.link with blankingSlots := s.link.blankingSlots + 1 } }

variable (examined : ¬ (s.link.present = false ∨ 0 < s.link.activeLines ∨ Config.examinedSlots ≤ s.link.blankingSlots))

include examined

theorem State.blankingSlot_of_empty (read : readSlot words = .empty) : s.blankingSlot words = s.slotCounted := by
  rw [State.blankingSlot, if_neg examined]
  simp only [read]
  rfl

theorem State.blankingSlot_of_bad (read : readSlot words = .bad) : s.blankingSlot words =
    { s.slotCounted with link := { s.slotCounted.link with badCheck := bump s.link.badCheck } } := by
  rw [State.blankingSlot, if_neg examined]
  simp only [read]
  rfl

theorem State.blankingSlot_of_good {e : Envelope} (read : readSlot words = .good e) :
    s.blankingSlot words = s.slotCounted.arrive e := by
  rw [State.blankingSlot, if_neg examined]
  simp only [read]
  rfl

end Slot

/-- Settles O26: what the slot holds, then the pool, then the executor. -/
theorem blankingSlotFillsAnEnvelope : Obligations.BlankingSlotFillsAnEnvelope := by
  intro s words released
  rw [exec_blankingSlot released]
  refine ⟨fun passed => by rw [State.blankingSlot_of_passed passed], fun present early within => ?_⟩
  have examined :
      ¬ (s.link.present = false ∨ 0 < s.link.activeLines ∨ Config.examinedSlots ≤ s.link.blankingSlots) := by
    simp [present, early, Config.examinedSlots, within]
  refine ⟨fun read => ?_, fun read => ?_, fun e read full => ?_, fun e read free idle none => ?_,
    fun e x read free busy => ?_⟩
  · rw [State.blankingSlot_of_empty examined read]
    rfl
  · rw [State.blankingSlot_of_bad examined read]
    rfl
  · rw [State.blankingSlot_of_good examined read, State.arrive_of_full (s := s.slotCounted) full]
    rfl
  · rw [State.blankingSlot_of_good examined read, State.arrive_of_idle (s := s.slotCounted) free idle none]
    rfl
  · rw [State.blankingSlot_of_good examined read, State.arrive_of_busy (s := s.slotCounted) free busy,
      Intake.enqueue_eq]
    rfl

/-! ### The loss of the link (R3, R15, R121, R148, R161) -/

theorem exec_linkLossTimeout {s : State} (h : s.hold.held = false) : exec .linkLossTimeout s = .next s.linkLoss :=
  whenReleased_eq h (·.linkLoss)

/-- The part when the loss timer has expired, before LINK_LOSS is made pending. -/
def State.unlinked (s : State) : State :=
  State.raise { s with
    link := { s.link.setSlot s.link.inputSlot (s.link.slotRecord s.link.inputSlot).spoil with
      present := false, timerRunning := false }
    picture := Picture.blacken { s.picture with mutes := { s.picture.mutes with link := true } }
    light := { s.light with d := 0 } } .linkLost

theorem State.linkLoss_eq {s : State} (running : s.link.timerRunning = true) :
    s.linkLoss = s.unlinked.makePending .linkLoss := by
  unfold State.linkLoss
  rw [if_neg (by rw [running]; decide)]
  rfl

/-- Settles O29: the expiry's own effects, and what the report of LINK_LOSS keeps of them. -/
theorem linkLossTakesEffectAtOnce : Obligations.LinkLossTakesEffectAtOnce := by
  intro s released running
  have r := s.unlinked.ripple_makePending .linkLoss
  have picture := r.delivered
  have light := r.lightDelivered
  refine ⟨_, (exec_linkLossTimeout released).trans (congrArg _ (State.linkLoss_eq running)), r.link,
    r.sender.has (Sender.has_raise _ _), State.makePending_get _ _, Nat.le_zero.1 light.d, ?_, ?_, ?_, r.startup,
    r.intake, r.table, r.gen, r.mem, r.sensors, r.pins, r.hold, r.pending⟩
  · rw [light.rest]
    rfl
  · rw [picture.mutes]
    rfl
  · refine picture.keepsBlack fun f hf => ?_
    obtain ⟨_, _, rfl⟩ := Option.map_eq_some_iff.1 hf
    rfl

end Sys2Proof.Machine

namespace Sys2Proof.Machine

/-! ### The return lane (R168, R169, R171) -/

theorem exec_sendOpportunity {s : State} (h : s.hold.held = false) : exec (.sendOpportunity true) s = .next s.send :=
  whenReleased_eq h (·.send)

theorem exec_sendOpportunity_notReady {s : State} (h : s.hold.held = false) :
    exec (.sendOpportunity false) s = .next { s with sender := { s.sender with laneOut := none } } :=
  whenReleased_eq h fun s => { s with sender := { s.sender with laneOut := none } }

theorem State.send_of_queued {s : State} (h : s.sender.notice = .queued) : s.send =
    { s with sender := { s.sender with notice := .sent, laneOut := some s.sender.noticeMessage } } :=
  if_pos h

section Unqueued

variable {s : State} (h : s.sender.notice ≠ .queued)

include h

theorem State.send_of_noReply (empty : s.intake.replies = []) :
    s.send = { s with sender := { s.sender with laneOut := none } } := by
  rw [State.send, if_neg h, empty]

theorem State.send_of_reply {r : Reply} {rest : List Reply} (head : s.intake.replies = r :: rest) : s.send = { s with
    sender := { s.sender with laneOut := some r.message }
    intake := if r.more r.sent then { s.intake with replies := { r with sent := r.sent + 1 } :: rest }
      else { s.intake with replies := rest, free := s.intake.free + 1 } } := by
  rw [State.send, if_neg h, head]

end Unqueued

/-- Settles O34: the ready line, the notice and the reply queue in turn. -/
theorem sendOpportunityPrefersTheNotice : Obligations.SendOpportunityPrefersTheNotice := by
  intro s released
  refine ⟨exec_sendOpportunity_notReady released, fun queued => ?_, fun unqueued empty => ?_,
    fun r rest unqueued head => ?_⟩ <;> rw [exec_sendOpportunity released]
  · rw [State.send_of_queued queued]
    rfl
  · rw [State.send_of_noReply unqueued empty]
  · rw [State.send_of_reply unqueued head]
    rfl

/-- The parts before a part, joined, are the items before it (R169). -/
theorem Reply.flatMap_part (r : Reply) (n : Nat) :
    (List.range n).flatMap r.part = r.outcome.words.take (Config.payloadWords * n) := by
  induction n with
  | zero => rfl
  | succ n ih =>
    rw [List.range_succ, List.flatMap_append, ih, List.flatMap_singleton, Nat.mul_succ, List.take_add]
    rfl

theorem Reply.part_length (r : Reply) (n : Nat) :
    (r.part n).length = min Config.payloadWords (r.outcome.words.length - Config.payloadWords * n) := by
  rw [Reply.part, List.length_take, List.length_drop]

theorem Reply.more_iff {r : Reply} {n : Nat} : r.more n = true ↔ 62 * (n + 1) < r.outcome.words.length :=
  decide_eq_true_iff

/-- Settles O35: the parts up to one that is not followed by another take all items. -/
theorem replyPartsCarryAllItems : Obligations.ReplyPartsCarryAllItems := by
  intro r last ends before
  have all : r.outcome.words.length ≤ 62 * (last + 1) := by
    rw [← not_lt, ← Reply.more_iff, ends]
    decide
  refine ⟨?_, fun n hn => ?_, ?_⟩
  · exact (r.flatMap_part _).trans (List.take_of_length_le all)
  · have further := Reply.more_iff.1 (before n hn)
    rw [Reply.part_length]
    simp only [Config.payloadWords]
    omega
  · rw [Reply.part_length]
    exact Nat.min_le_left _ _

/-! ### The end of an execution (R166, R167) -/

/-- Settles O36: the envelope returned, then the head of the first queue that holds one. -/
theorem executionEndsInReplyOrPool : Obligations.ExecutionEndsInReplyOrPool := by
  intro i e o
  obtain ⟨idle, urgent, motion, setup, dropped⟩ := i.returned_leaves e o
  simp only [Intake.finish_eq, Intake.takeNext_free, Intake.takeNext_replies, Intake.takeNext_dropped]
  refine ⟨fun quiet => ?_, fun replies => ?_, dropped, fun x rest hu => ?_, fun x rest hu hm => ?_,
    fun x rest hu hm hs => ?_, fun none => ?_⟩
  · rw [Intake.returned, if_pos quiet]
    exact ⟨rfl, rfl⟩
  · rw [Intake.returned, if_neg replies]
    exact ⟨rfl, rfl⟩
  · rw [Intake.takeNext_of_urgent idle (urgent.trans hu)]
    exact ⟨rfl, rfl, motion, setup⟩
  · rw [Intake.takeNext_of_motion idle (urgent.trans hu) (motion.trans hm)]
    exact ⟨rfl, urgent.trans hu, rfl, setup⟩
  · rw [Intake.takeNext_of_setup idle (urgent.trans hu) (motion.trans hm) (setup.trans hs)]
    exact ⟨rfl, urgent.trans hu, motion.trans hm, rfl⟩
  · obtain ⟨hu, hm, hs⟩ := Intake.queued_eq_zero_iff.1 none
    rw [Intake.takeNext_of_empty idle (urgent.trans hu) (motion.trans hm) (setup.trans hs)]
    exact ⟨idle, Intake.queued_eq_zero_iff.2 ⟨urgent.trans hu, motion.trans hm, setup.trans hs⟩⟩

/-! ### EVENT_ACK, EVENT_MASK and the unassigned kinds (R165, R171 to R173) -/

theorem twoWords_of_length {p : List Word} (h : p.length ≠ 2) : twoWords p = none := by
  unfold twoWords
  split
  · exact absurd rfl h
  · rfl

/-- The notice by the flags left set under a mask (R171). -/
theorem Sender.noticeOf_attention (x : Sender) : (if x.attention then Notice.queued else .none) =
    if x.flags &&& x.mask = 0#32 then .none else .queued := by
  by_cases zero : x.flags &&& x.mask = 0#32 <;> simp [Sender.attention, zero]

/-- Settles O38: the two words named, then the notice by the flags left under the mask. -/
theorem acknowledgeAndMask : Obligations.AcknowledgeAndMask := by
  intro s e p
  refine ⟨?_, fun length => ⟨fun executes => exec_of_noFields rfl executes (twoWords_of_length length),
    fun executes => exec_of_noFields rfl executes (twoWords_of_length length)⟩⟩
  rintro x y rfl
  refine ⟨fun executes => exec_of_fields rfl executes (x := (x, y)) rfl (Prod.ext ?_ rfl),
    fun executes => exec_of_fields rfl executes (x := (x, y)) rfl (Prod.ext ?_ rfl)⟩
  · simp only [Sender.afterAck, Sender.noticeOf_attention]
    rfl
  · simp only [Sender.afterMask, Sender.noticeOf_attention, beq_iff_eq]
    rfl

/-- Settles O37: the row of the unassigned kinds takes the message, and its effect is the refusal. -/
theorem unknownKindIsRefused : Obligations.UnknownKindIsRefused := by
  intro s e kind p executes unassigned
  have mine : (!assignedKinds.contains e.kind) = true := by simpa [executes.kind] using unassigned
  exact runMessage_eq executes mine fun _ s => (s, .refused .unknown)

/-! ### QUERY (R174) -/

section Query

variable {c : Instr} {s : State} {e : Envelope} {item top : Nat} {k : Nat → State → State × MsgOutcome}
  (arm : exec c s = runMessage s (ofItem item) fun p => fieldsThen (queryField item top p) k)

include arm

/-- A QUERY of the row's item with a parameter in range is carried out. -/
theorem exec_query {code x : Word} (executes : s.Executes e 0x61#8 [code, x]) (own : code.toNat = item)
    (range : x.toNat ≤ top) {t : State} {o : MsgOutcome} (effect : k x.toNat s = (t, o)) :
    exec c s = .next (t.ended e o) := by
  have mine : ofItem item e = true := by simp [ofItem, executes.kind, executes.payload, own]
  have fields : queryField item top [code, x] = some x.toNat := (if_pos own).trans (if_pos range)
  rw [arm, runMessage_eq executes mine]
  simp only [fieldsThen, fields, effect]

/-- With a parameter out of range it is refused. -/
theorem exec_query_of_badParameter {code x : Word} (executes : s.Executes e 0x61#8 [code, x]) (own : code.toNat = item)
    (range : top < x.toNat) : exec c s = .next (s.ended e (.refused .badField)) := by
  have mine : ofItem item e = true := by simp [ofItem, executes.kind, executes.payload, own]
  have fields : queryField item top [code, x] = none := (if_pos own).trans (if_neg range.not_ge)
  rw [arm, runMessage_eq executes mine]
  simp only [fieldsThen, fields]

/-- One of another length, or of an item code above 10, is refused by every row (assumption 2). -/
theorem exec_query_of_noItem {p : List Word} (executes : s.Executes e 0x61#8 p) (known : item ≤ 10)
    (bad : p.length ≠ 2 ∨ ∃ code x : Word, p = [code, x] ∧ 10 < code.toNat) :
    exec c s = .next (s.ended e (.refused .badField)) := by
  have refused : ofItem item e = true ∧ queryField item top p = none := by
    rcases bad with length | ⟨code, x, rfl, above⟩
    · rw [ofItem, executes.kind, executes.payload]
      unfold queryField
      constructor
      · split
        · exact absurd rfl length
        · rfl
      · split
        · exact absurd rfl length
        · rfl
    · have other : code.toNat ≠ item := by omega
      exact ⟨by simp [ofItem, executes.kind, executes.payload, lastItem, above], if_neg other⟩
  rw [arm, runMessage_eq executes refused.1]
  simp only [fieldsThen, refused.2]

end Query

theorem axisNumbered_axisNumber (a : Axis) : axisNumbered (axisNumber a) = a := by cases a <;> rfl

theorem axisWord_toNat (a : Axis) : (axisWord a).toNat = axisNumber a := by cases a <;> rfl

theorem axisNumber_le (a : Axis) : axisNumber a ≤ 2 := by cases a <;> decide

/-- A row that takes no parameter but 0 reports its items, and refuses any other parameter (R174). -/
theorem exec_report {c : Instr} {s : State} {e : Envelope} {item : Word} {items : State → List Word}
    (arm : exec c s = runMessage s (ofItem item.toNat) (reportBody item.toNat 0 fun _ => items)) :
    (s.Executes e 0x61#8 [item, 0#16] → exec c s = .next (s.ended e (.data (items s))))
    ∧ ∀ x, x ≠ 0#16 → s.Executes e 0x61#8 [item, x] → exec c s = .next (s.ended e (.refused .badField)) := by
  refine ⟨fun executes => exec_query arm executes rfl le_rfl rfl, fun x other executes => ?_⟩
  refine exec_query_of_badParameter arm executes rfl (Nat.pos_of_ne_zero fun zero => other ?_)
  exact BitVec.eq_of_toNat_eq zero

/-- Settles O41: each row carries out the QUERY of its own item and refuses what it has no fields for. -/
theorem queryReportsAndChangesNothing : Obligations.QueryReportsAndChangesNothing := by
  intro s e
  refine ⟨fun a executes => ?_, fun x above executes => exec_query_of_badParameter (top := 2) rfl executes rfl above,
    fun c item items row => ?_, fun c p row bad executes => ?_⟩
  · refine exec_query (top := 2) rfl executes rfl (axisWord_toNat a ▸ axisNumber_le a) ?_
    simp only [axisWord_toNat, axisNumbered_axisNumber]
  · simp only [List.mem_cons, Prod.mk.injEq, List.not_mem_nil, or_false] at row
    rcases row with ⟨rfl, rfl, rfl⟩ | ⟨rfl, rfl, rfl⟩ | ⟨rfl, rfl, rfl⟩ | ⟨rfl, rfl, rfl⟩ | ⟨rfl, rfl, rfl⟩ |
      ⟨rfl, rfl, rfl⟩ | ⟨rfl, rfl, rfl⟩ | ⟨rfl, rfl, rfl⟩
    all_goals exact exec_report rfl
  · simp only [List.mem_cons, List.not_mem_nil, or_false] at row
    rcases row with rfl | rfl | rfl | rfl | rfl | rfl | rfl | rfl | rfl | rfl | rfl
    all_goals exact exec_query_of_noItem rfl executes (by decide) bad

/-- Settles O42: the values first, then the parameter. -/
theorem countersAndCauseClearOnRequest : Obligations.CountersAndCauseClearOnRequest := by
  intro s e x
  refine ⟨fun executes => ⟨?_, ?_, fun above => ?_, fun sound => ?_⟩, fun executes => ⟨?_, ?_, fun above => ?_⟩⟩
  · rintro rfl
    exact exec_query rfl executes rfl (by decide) rfl
  · rintro rfl
    exact exec_query rfl executes rfl (by decide) rfl
  · exact exec_query_of_badParameter (top := 1) rfl executes rfl above
  · have total := sound.total
    simp only [Intake.total, executes.slot, Option.isSome_some, if_true, Config.envelopes] at total
    omega
  · rintro rfl
    exact exec_query rfl executes rfl (by decide) rfl
  · rintro rfl
    exact exec_query rfl executes rfl (by decide) rfl
  · exact exec_query_of_badParameter (top := 1) rfl executes rfl above

end Sys2Proof.Machine

/-! # Start-up and restarts

A part held in reset does nothing, a release puts back the power-on values, the self-check decides the part state, and
a part that is STARTING refuses the messages that need it out of it (R178, R179). -/

namespace Sys2Proof.Machine

/-! ### The hold and the releases (R178) -/

/-- Whichever input takes hold, the part is held. -/
theorem Hold.held_take (h : Hold) (i : ResetInput) : (h.take i).held = true := by
  cases i with
  | powerOn => rfl
  | supply => exact Bool.or_true _

section Held

variable {s : State} (held : s.hold.held = true)

include held

theorem State.pwmOut_of_held (x : Fan) : s.pwmOut x = 0 := if_pos held

theorem State.driveLine_of_held : s.driveLine = 0 := if_pos held

end Held

/-- A release puts back the power-on values, the two inputs low. -/
theorem State.release_eq (s : State) (sawPowerOn : Bool) : s.release sawPowerOn =
    { State.reset with
      pending := s.pending, pins := s.pins, mem := s.mem.forget
      startup := ⟨.starting, .running, if sawPowerOn then .powerOn else .supplyDip⟩ } := rfl

section Releases

variable {s : State}

theorem exec_powerOnReset_released (h : s.hold.supply = false) : exec .powerOnReset s = .next (s.release true) :=
  congrArg Host.Outcome.next (if_neg (by simp [h]))

theorem exec_powerOnReset_held (h : s.hold.supply = true) :
    exec .powerOnReset s = .next { s with hold := ⟨false, true, true⟩ } :=
  congrArg Host.Outcome.next (if_pos h)

theorem exec_supplyDipReset_released (h : s.hold.powerOn = false) :
    exec .supplyDipReset s = .next (s.release s.hold.sawPowerOn) :=
  congrArg Host.Outcome.next (if_neg (by simp [h]))

theorem exec_supplyDipReset_held (h : s.hold.powerOn = true) :
    exec .supplyDipReset s = .next { s with hold := ⟨true, false, true⟩ } :=
  congrArg Host.Outcome.next (if_pos h)

end Releases

/-- Settles O4: each release by the level of the other input, then the part as an input takes hold. -/
theorem releaseGivesPowerOnValues : Obligations.ReleaseGivesPowerOnValues := by
  intro s
  refine ⟨fun released => ?_, exec_powerOnReset_held, fun released => ?_, exec_supplyDipReset_held, fun i => ?_⟩
  · rw [exec_powerOnReset_released released, State.release_eq]
    rfl
  · rw [exec_supplyDipReset_released released, State.release_eq]
  · have held := s.hold.held_take i
    refine ⟨s.powerOnValues s.startup.cause (s.hold.take i), rfl, held, ?_, rfl, rfl, rfl, State.pwmOut_of_held held,
      State.driveLine_of_held held, rfl, rfl, fun a => ?_⟩
    · rintro rfl
      rfl
    · cases a <;> rfl

/-! ### A held part (R178) -/

/-- A command whose effect waits for the release answers the state that it found. -/
theorem exec_waits {c : Instr} {s q t : State} (arm : exec c s = .next (if q.hold.held then q else t))
    (held : q.hold.held = true) : exec c s = .next q :=
  arm.trans (congrArg Host.Outcome.next (if_pos held))

/-- Every command but the resets waits for the release; the pin commands alone have moved their pin before it. -/
theorem exec_of_held {c : Instr} {s : State} (held : s.hold.held = true) (running : ¬ c.Restarts) :
    ∃ pins, exec c s = .next { s with pins := pins } ∧ (¬ c.MovesPins → pins = s.pins) := by
  cases c with
  | powerOnReset => exact absurd (.inl rfl) running
  | supplyDipReset => exact absurd (.inr (.inl rfl)) running
  | heldInReset i => exact absurd (.inr (.inr ⟨i, rfl⟩)) running
  | limitSwitchClose a =>
    exact ⟨_, exec_waits (q := s.setPin a { s.pins.get a with switchClosed := true }) rfl held,
      fun still => absurd (.inl ⟨a, rfl⟩) still⟩
  | limitSwitchOpen a =>
    exact ⟨_, exec_waits (q := s.setPin a { s.pins.get a with switchClosed := false }) rfl held,
      fun still => absurd (.inr (.inl ⟨a, rfl⟩)) still⟩
  | driverFault a on =>
    exact ⟨_, exec_waits (q := s.setPin a { s.pins.get a with driverFault := on }) rfl held,
      fun still => absurd (.inr (.inr ⟨a, on, rfl⟩)) still⟩
  | _ => exact ⟨s.pins, exec_waits rfl held, fun _ => rfl⟩

/-- Settles O5: the outputs by the hold, the commands by their wait for the release. -/
theorem heldPartDoesNothing : Obligations.HeldPartDoesNothing := by
  intro c s held
  refine ⟨State.pwmOut_of_held held, State.driveLine_of_held held, fun power supply hold => ?_⟩
  have running : ¬ c.Restarts := by
    rintro (e | e | ⟨i, e⟩)
    · exact power e
    · exact supply e
    · exact hold i e
  obtain ⟨pins, answer, still⟩ := exec_of_held held running
  refine ⟨pins, answer, fun close opens fault => still ?_⟩
  rintro (⟨a, e⟩ | ⟨a, e⟩ | ⟨a, on, e⟩)
  · exact close a e
  · exact opens a e
  · exact fault a on e

/-! ### The self-check (R179) -/

theorem exec_selfCheckDone {s : State} (h : s.hold.held = false) (passed : Bool) :
    exec (.selfCheckDone passed) s = .next (s.checkEnds passed) :=
  whenReleased_eq h (·.checkEnds passed)

/-- The part when the self-check has failed, before MEMORY_FAULT is made pending. -/
def State.checkFailed (s : State) : State :=
  { s with
    startup := { s.startup with part := .failed, check := .failed }
    picture := Picture.blacken
      { s.picture with mutes := { s.picture.mutes with starting := false, memory := true } } }

section CheckEnds

variable {s : State} (running : s.startup.check = .running)

include running

theorem State.checkEnds_passed : s.checkEnds true = State.raise { s with
    startup := { s.startup with part := .ready, check := .passed }
    picture := { s.picture with mutes := { s.picture.mutes with starting := false } } } .ready :=
  if_pos running

theorem State.checkEnds_failed : s.checkEnds false = s.checkFailed.makePending .memoryFault := if_pos running

end CheckEnds

theorem State.checkFailed_black (s : State) : ∀ f, s.checkFailed.picture.frame = some f → f.black = true := by
  intro f hf
  obtain ⟨_, _, rfl⟩ := Option.map_eq_some_iff.1 hf
  rfl

/-- Settles O6: the failure's own effects, and what the report of MEMORY_FAULT keeps of them. -/
theorem selfCheckDecidesThePart : Obligations.SelfCheckDecidesThePart := by
  intro s released running
  rw [exec_selfCheckDone released, exec_selfCheckDone released, State.checkEnds_passed running,
    State.checkEnds_failed running]
  have r := s.checkFailed.ripple_makePending .memoryFault
  have picture := r.delivered
  refine ⟨rfl, _, rfl, r.startup, ?_, ?_, picture.keepsBlack s.checkFailed_black, State.makePending_get _ _, r.link,
    r.intake, r.table, r.gen, r.mem, r.sensors, r.pins, r.hold, r.pending⟩
  · rw [picture.mutes]
    rfl
  · rw [picture.mutes]
    rfl

/-! ### The promises after reset (R178) -/

/-- Nothing is stored in the frame memory at reset; all else is as a release leaves it. -/
theorem State.reset_shown : State.reset.Shown := by
  have released := State.reset.powerOnValues_shown .powerOn State.reset.hold
  exact ⟨released.picture.keeps (.refl _) (.refl _) reset_frameWf, released.startup.keeps⟩

/-- Nothing is placed at reset, and no axis is to be retargeted (R84, R95). -/
theorem State.reset_follows : State.reset.FollowsBut [] :=
  .of_reset rfl rfl fun a => by cases a <;> trivial

/-- Settles O8: each promise by its block's values after power-on. -/
theorem everyPromiseHoldsAtReset : Obligations.EveryPromiseHoldsAtReset where
  intake := resetIntake_sound
  sender := powerOnSender_sound
  table := defaultActions_sound
  prot := resetProtection_sound
  inForce := (State.reset.powerOnValues_limited .powerOn State.reset.hold).inForce.of_same
  light := resetLight_sound
  fans := powerOnFans_sound
  lens := powerOnLens_sound
  placement := State.reset.placementSound_iff.2 State.reset_follows
  sensors := powerOnSensors_sound
  tables := State.tablesSound_of_reset rfl rfl
  picture := State.reset_shown.picture
  startup := State.reset_shown.startup

/-! ### Messages to a part that is STARTING (R179) -/

/-- In STARTING the part state refuses before the payload is looked at. -/
theorem readyThen_of_starting {φ : Type} {fields : Option φ} {k : φ → State → State × MsgOutcome} {s : State}
    (hs : s.startup.part = .starting) : readyThen fields k s = (s, .refused .notReady) := by
  simp [readyThen, State.starting, hs]

/-- Settles O40: every row of the list looks at the part state first. -/
theorem startingRefusesTheLens : Obligations.StartingRefusesTheLens := by
  intro s e c kind p row executes starting
  simp only [List.mem_cons, Prod.mk.injEq, List.not_mem_nil, or_false] at row
  rcases row with ⟨rfl, rfl⟩ | ⟨rfl, rfl⟩ | ⟨rfl, rfl⟩ | ⟨rfl, rfl⟩ | ⟨rfl, rfl⟩ | ⟨rfl, rfl⟩ | ⟨rfl, rfl⟩ |
    ⟨rfl, rfl⟩ | ⟨rfl, rfl⟩ | ⟨rfl, rfl⟩ | ⟨rfl, rfl⟩ | ⟨rfl, rfl⟩ | ⟨rfl, rfl⟩ | ⟨rfl, rfl⟩ | ⟨rfl, rfl⟩ |
    ⟨rfl, rfl⟩ | ⟨rfl, rfl⟩ | ⟨rfl, rfl⟩ | ⟨rfl, rfl⟩ | ⟨rfl, rfl⟩
  all_goals exact exec_eq_ended rfl executes (readyThen_of_starting starting)

end Sys2Proof.Machine

namespace Sys2Proof.Machine

/-! ### What a step runs -/

/-- With a command waiting, a step takes it off the queue and executes it. -/
theorem step_of_pending_cons {s : State} {c : Instr} {rest : List Instr} (front : s.pending = c :: rest) :
    step s = exec c { s with pending := rest } := by
  simp only [step, front]

/-- With no command waiting, a step idles (assumption 3). -/
theorem step_of_pending_nil {s : State} (empty : s.pending = []) : step s = .next s := by
  simp only [step, empty]

/-- Settles O1: a queue with a command at its front, and an empty one. -/
theorem stepRunsFrontCommand : Obligations.StepRunsFrontCommand :=
  ⟨fun _ _ _ => step_of_pending_cons rfl, fun _ => step_of_pending_nil⟩

end Sys2Proof.Machine
